-- ==== Sys2Proof/Word.lean ====
section
/-! DEFINITION. The word types of the machine (00_scope.md R8). -/

namespace Sys2Proof

/-- A byte of memory or a general register (R8: registers and memory cells have 8 bits). -/
abbrev Byte := BitVec 8

/-- A 16-bit value: `I`, `PC`, a stack entry, an instruction word, an address (R8, 20_memory.md R54). -/
abbrev Word := BitVec 16

/-- The index of a general register, 0..15 (R8, 30_encoding.md R74). -/
abbrev Reg := Fin 16

/-- A key code, 0..15 (R8). -/
abbrev Key := Fin 16

end Sys2Proof
end

