-- ==== Sys2Proof/Config.lean ====
section
/-! DEFINITION. What is fixed for a machine session and what the host answers: the target variant, the shape of
the quirk record, and the free values (constants with no body, so that nothing can be proved about their value). -/

namespace Sys2Proof

/-- The target variant (00_scope.md R2): "one of three, fixed for the session". -/
inductive Target where
  | chip8
  | chip48
  | superchip10
  deriving DecidableEq, Repr

/-- The quirk record `Q` (00_scope.md R3): one field per row of its table, in its order. -/
structure Quirks where
  resetsVfOnLogicOps : Bool
  shiftCopiesY : Bool
  saveLoadIncrementsIByNPlusOne : Bool
  jumpOffsetUsesVx : Bool
  hasHiresOps : Bool
  bigSpriteOnN0 : Bool
  vblankWait : Bool
  /-- `PW`, the physical width of the framebuffer. -/
  physWidth : Nat
  /-- `PH`, the physical height of the framebuffer. -/
  physHeight : Nat
  deriving DecidableEq, Repr

/-- One answer of the host's input backend to a poll (60_exceptions.md R190): "any 16 key bits, any `LASTKEY`
and any `EXIT`, with no constraint between them". -/
structure Poll where
  keys : Vector Bool 16
  lastKey : Option Key
  exit : Bool
  deriving DecidableEq, Repr, Inhabited

/-! ## Free values (log entries 3, 4, 5, 13, 14)

Each function below is applied to the counter `State.draws`, so that two draws are unrelated. -/

/-- `Random()`: any byte at each CXNN (00_scope.md R13, 42_alu.md R126). -/
opaque Config.randomByte : Nat → Byte

/-- `KeyDraw()`: the backend's answer for a key code above 15, either value at each execution
(45_timers_keys.md R163). The core gives the host the code (60_exceptions.md R206). -/
opaque Config.keyDraw : Nat → Byte → Bool

/-- `poll()`: the input snapshot the host gives at each `clock_bus` (60_exceptions.md R190). -/
opaque Config.poll : Nat → Poll

/-- What the wall clock shows, in seconds, when the session is made (60_exceptions.md R196). -/
opaque Config.clockStart : Rat

/-- How far the wall clock moves on between one draw and the next: any time that is not negative. -/
opaque Config.clockStep : Nat → NNRat

/-- `now()`: the wall clock, in seconds, "monotonic" and otherwise free (60_exceptions.md R204, R206). -/
def Config.now : Nat → Rat
  | 0 => Config.clockStart
  | k + 1 => Config.now k + (Config.clockStep k : Rat)

/-- Whether the host requests a CPU reset at this point between two frames (70_reset_and_hazards.md R209). -/
opaque Config.resetRequest : Nat → Bool

/-- The ROM image the host gives before the run, `none` where there is no stream (70_reset_and_hazards.md R212,
R214). -/
opaque Config.rom : Option (List Byte)

/-- `P_KEYCLICK_ST`: the value FX0A writes to ST on a key press, OPEN in the spec (00_scope.md R9,
92_eei_decisions.md D25). -/
opaque Config.keyClickSt : Byte

end Sys2Proof
end

