-- ==== Sys2Proof/Machine/Params.lean ====
section
/-! DEFINITION. The parameters of 00_scope.md R9 and the quirk table of R3, at the values the spec fixes. -/

namespace Sys2Proof

/-- The quirk record of each target (00_scope.md R3, the table). -/
def Target.quirks : Target → Quirks
  | .chip8 =>
    { resetsVfOnLogicOps := true, shiftCopiesY := true, saveLoadIncrementsIByNPlusOne := true,
      jumpOffsetUsesVx := false, hasHiresOps := false, bigSpriteOnN0 := false, vblankWait := true,
      physWidth := 64, physHeight := 32 }
  | .chip48 =>
    { resetsVfOnLogicOps := true, shiftCopiesY := false, saveLoadIncrementsIByNPlusOne := false,
      jumpOffsetUsesVx := true, hasHiresOps := false, bigSpriteOnN0 := false, vblankWait := true,
      physWidth := 64, physHeight := 32 }
  | .superchip10 =>
    { resetsVfOnLogicOps := true, shiftCopiesY := false, saveLoadIncrementsIByNPlusOne := false,
      jumpOffsetUsesVx := true, hasHiresOps := true, bigSpriteOnN0 := true, vblankWait := true,
      physWidth := 128, physHeight := 64 }

/-- The target of `State.reset` (DESIGN CHOICE, log entry 1): the one on which all 36 rows are instructions. -/
def Params.resetTarget : Target := .superchip10

/-- `P_STACK_LIMIT`: the number of nested calls that succeed (R9, 90_conflicts.md C1). -/
abbrev Params.stackLimit : Nat := 15

/-- `P_WRAP_PIXELS`: clip after wrap (false) or wrap every pixel (true) (R9, 44_display.md R150; log entry 7). -/
abbrev Params.wrapPixels : Bool := false

/-- `P_SCHIP_START_HIRES` (R9, 10_state.md R47; log entry 16). -/
def Params.schipStartHires : Bool := false

/-- `P_IPS`: cycles per second (R9). -/
abbrev Params.ips : Rat := 500

/-- `P_FRAME`: the frame period, exactly 1/60 s (R9). -/
abbrev Params.framePeriod : Rat := 1 / 60

/-- The size of the memory in bytes (R8, 20_memory.md R53). -/
abbrev Params.memSize : Nat := 4096

/-- The program load address and reset PC (R8, 70_reset_and_hazards.md R210). -/
abbrev Params.loadAddress : Word := 0x200

/-- The longest ROM that loads (70_reset_and_hazards.md R213). -/
abbrev Params.maxRom : Nat := 3584

/-- `P_FONT`, digits 0 to 7 (20_memory.md R62). -/
def Params.fontLow : List Byte :=
  [0xF0, 0x90, 0x90, 0x90, 0xF0] ++ [0x20, 0x60, 0x20, 0x20, 0x70] ++
  [0xF0, 0x10, 0xF0, 0x80, 0xF0] ++ [0xF0, 0x10, 0xF0, 0x10, 0xF0] ++
  [0x90, 0x90, 0xF0, 0x10, 0x10] ++ [0xF0, 0x80, 0xF0, 0x10, 0xF0] ++
  [0xF0, 0x80, 0xF0, 0x90, 0xF0] ++ [0xF0, 0x10, 0x20, 0x40, 0x40]

/-- `P_FONT`, digits 8 to F (20_memory.md R62). -/
def Params.fontHigh : List Byte :=
  [0xF0, 0x90, 0xF0, 0x90, 0xF0] ++ [0xF0, 0x90, 0xF0, 0x10, 0xF0] ++
  [0xF0, 0x90, 0xF0, 0x90, 0x90] ++ [0xE0, 0x90, 0xE0, 0x90, 0xE0] ++
  [0xF0, 0x80, 0x80, 0x80, 0xF0] ++ [0xE0, 0x90, 0x90, 0x90, 0xE0] ++
  [0xF0, 0x80, 0xF0, 0x80, 0xF0] ++ [0xF0, 0x80, 0xF0, 0x80, 0x80]

/-- `P_FONT`: the 80 bytes at 0x000..0x04F (20_memory.md R61, R62; log entry 6). -/
def Params.font : List Byte := Params.fontLow ++ Params.fontHigh

/-- What a byte of memory holds after construction, before the ROM is loaded (10_state.md R47): the font at
0x000..0x04F, 0 everywhere else. An address the memory does not list reads as this (log entry 12). -/
def Params.initialByte (a : Nat) : Byte := Params.font.getD a 0

end Sys2Proof
end

