-- ==== Sys2Proof/Machine/State.lean ====
section
/-! DEFINITION. The state of the machine (10_state.md R51), its faults and refusals, and the state right after
construction and reset (10_state.md R46 to R48, 70_reset_and_hazards.md R207). -/

namespace Sys2Proof.Machine

/-- Memory: the listed cells, addresses strictly rising, none equal to what an unlisted address reads as
(`Params.initialByte`; `Memory.wf` in Machine/Ops.lean says this form; log entry 12). -/
abbrev Memory := List Host.Cell

/-- The physical pixels: row `py` (0 at the top) is a bit per column, bit `px` (0 at the left) (10_state.md R34).
The 128×64 grid of SUPERCHIP10 holds the 64×32 grid of the other targets in its top left corner (log entry 15). -/
abbrev FrameBuffer := Vector (BitVec 128) 64

/-- `KW`, the key-wait latch of FX0A (10_state.md R37). -/
inductive KeyWait where
  | idle
  | held
  deriving DecidableEq, Repr

/-- The causes a cycle can latch (60_exceptions.md R168, codes 1, 2, 3). -/
inductive FaultCause where
  | stackOverflow
  | stackUnderflow
  | memBounds
  deriving DecidableEq, Repr

/-- A latched fault: `(cause, pc, info)` (10_state.md R38). -/
structure FaultRecord where
  cause : FaultCause
  /-- the PC of the faulting cycle -/
  pc : Word
  /-- the lowest offending address for a bounds fault, 0 otherwise -/
  info : Word
  deriving DecidableEq, Repr

/-- Why the scheduler's loop has ended (60_exceptions.md R203). -/
inductive StopReason where
  | fault
  | exit
  deriving DecidableEq, Repr

/-- Where the machine stands in the construction sequence of 70_reset_and_hazards.md R207 and in the pseudocode
`run()` of 60_exceptions.md R196. The MODEL'S OWN (log entry 9). -/
inductive Phase where
  /-- constructed and reset; the ROM load is next (R207 step 5) -/
  | load
  /-- the ROM is loaded; `run()` is entered next (R207 step 6) -/
  | start
  /-- at the top of the loop, between two frames -/
  | wait
  /-- in a frame that fired at time `now`, with `slots` cycle slots to go; at 0 the bus clock is next -/
  | frame (slots : Nat) (now : Rat)
  /-- `clock_bus` of the frame is done; `clock_60hz` is next -/
  | tick (now : Rat)
  /-- the loop has ended -/
  | stopped (why : StopReason)
  deriving DecidableEq, Repr

/-- What the core gives the host (60_exceptions.md R206). -/
inductive HostEvent where
  /-- the `InvalidOpcode` report `(PC, op)` (R175) -/
  | invalidOpcode (pc op : Word)
  /-- the screen push: the physical grid and its size (R191) -/
  | screen (fb : FrameBuffer) (width height : Nat)
  /-- the audio tick (R192) -/
  | audio (mute : Bool)
  /-- the diagnostic of a latched fault (R174) -/
  | faultDiagnostic (f : FaultRecord)
  deriving DecidableEq, Repr

/-- The state record of 10_state.md R51, with the configuration value TARGET and three fields of the model's own at
the end. Log entries 1, 3, 9 and 11. -/
structure State where
  /-- `TARGET`, read-only for the session (00_scope.md R2) -/
  target : Target
  /-- `V0..VF` (R23) -/
  v : Vector Byte 16
  /-- `I` (R26) -/
  i : Word
  /-- `PC` (R27) -/
  pc : Word
  /-- `SP`, the number of stack entries in use (R28) -/
  sp : BitVec 8
  /-- `STACK[0..15]` (R29) -/
  stack : Vector Word 16
  /-- `DT` (R30) -/
  dt : Byte
  /-- `ST` (R31) -/
  st : Byte
  /-- `MEM` (R33) -/
  mem : Memory
  /-- `FB` (R34) -/
  fb : FrameBuffer
  /-- `DOUBLE` (R35) -/
  double : Bool
  /-- `VBL` (R36) -/
  vbl : Bool
  /-- `KW` (R37) -/
  kw : KeyWait
  /-- `KWK` (R37) -/
  kwk : Key
  /-- `FAULT`, `none` for NONE (R38) -/
  fault : Option FaultRecord
  /-- `KEYS[0..15]`, true for down (R39) -/
  keys : Vector Bool 16
  /-- `LASTKEY`, `none` for NONE (R39) -/
  lastKey : Option Key
  /-- `EXIT` (R39) -/
  exit : Bool
  /-- `TONE_REQ` (R41) -/
  toneReq : Bool
  /-- `T_LAST` in seconds (R42) -/
  tLast : Rat
  /-- `CREDIT` (R42) -/
  credit : Rat
  /-- the model's own: where in its sequence the machine stands -/
  phase : Phase
  /-- the model's own: the number of draws of the host's free answers so far -/
  draws : Nat
  /-- the model's own: what the core has given the host, newest first -/
  out : List HostEvent
  deriving DecidableEq, Repr

/-- The three kinds of error event (60_exceptions.md R167). -/
inductive ErrorKind where
  /-- halts the core -/
  | fault
  /-- logged while execution continues -/
  | report
  /-- stops the machine from starting -/
  | loadFailure
  deriving DecidableEq, Repr

/-- Why a ROM does not load (60_exceptions.md R168 code 4, R173). -/
inductive LoadFailure where
  | missing
  | empty
  | tooLarge
  deriving DecidableEq, Repr

/-- The reasons a step stops the machine. The core's own faults (60_exceptions.md R168, codes 1 to 3) are NOT here:
they are latched in `State.fault`, a next state (log entry 8). -/
inductive Fault where
  /-- The load failure `RomLoad` (R173): raised by the load step only (Machine/Scheduler.lean), when the host's ROM
  is missing, empty or too large. Safe: the spec says no cycle runs after it. -/
  | romLoad (why : LoadFailure)
  /-- RET with SP over 16, where the stack has no entry SP − 1: raised by `execRet` only, in a state no run reaches
  (10_state.md R28, R44; log entry 2). Safe: the machine stops where the spec gives nothing to read. -/
  | stackEntryAbsent
  deriving DecidableEq, Repr

/-- The reasons a step gives an instruction no meaning. -/
inductive Refusal where
  /-- Raised by `exec` for an instruction of the table that has no meaning in this model yet. Safe. -/
  | notModelled (mnemonic : String)
  deriving DecidableEq, Repr

/-- The outcome of a step or of an instruction. -/
abbrev Res := Host.Outcome State Fault Refusal

/-- Construction of a session for a target, up to the ROM load (70_reset_and_hazards.md R207 steps 1 to 4): memory and
framebuffer (10_state.md R47), the CPU reset values (R46), the bus and scheduler state (R48). -/
def State.construct (t : Target) : State where
  target := t
  v := Vector.replicate 16 0
  i := 0
  pc := Params.loadAddress
  sp := 0
  stack := Vector.replicate 16 0
  dt := 0
  st := 0
  mem := []
  fb := Vector.replicate 64 0
  double := decide (t = .superchip10) && !Params.schipStartHires
  vbl := false
  kw := .idle
  kwk := 0
  fault := none
  keys := Vector.replicate 16 false
  lastKey := none
  exit := false
  toneReq := false
  tLast := Config.now 0
  credit := 0
  phase := .load
  draws := 0
  out := []

/-- The machine right after reset, on the target of log entry 1. -/
def State.reset : State := State.construct Params.resetTarget

end Sys2Proof.Machine
end

