-- ==== Sys2Proof/Machine/Ops.lean ====
section
/-! DEFINITION. The named operations on memory, registers, pixels and the program counter, and raising a fault. -/

namespace Sys2Proof.Machine

/-! ## Memory (20_memory.md) -/

/-- The byte at an address: the listed one, else what the address holds after construction (R67, 10_state.md R47). -/
def Memory.get : Memory → Nat → Byte
  | [], a => Params.initialByte a
  | (k, b) :: m, a => if k = a then b else Memory.get m a

/-- Store a byte, keeping the canonical form: a byte equal to what an unlisted address reads as is not listed. -/
def Memory.put : Memory → Nat → Byte → Memory
  | [], a, b => if b = Params.initialByte a then [] else [(a, b)]
  | (k, c) :: m, a, b =>
    if a < k then (if b = Params.initialByte a then (k, c) :: m else (a, b) :: (k, c) :: m)
    else if a = k then (if b = Params.initialByte a then m else (a, b) :: m)
    else (k, c) :: Memory.put m a b

/-- The canonical form from address `lo` up: addresses strictly rising, inside memory, no redundant entry. -/
def Memory.wfFrom : Nat → Memory → Bool
  | _, [] => true
  | lo, (k, b) :: m =>
    decide (lo ≤ k) && decide (k < Params.memSize) && decide (b ≠ Params.initialByte k) && Memory.wfFrom (k + 1) m

/-- The canonical form of a memory (log entry 12). -/
def Memory.wf (m : Memory) : Bool := Memory.wfFrom 0 m

/-- The bounds check of R55: an address is in memory iff it is below 4096. -/
def inMem (a : Word) : Bool := decide (a.toNat < Params.memSize)

/-- The address `a + k`, computed modulo 2^16 and never masked (R54). -/
def addrAt (a : Word) (k : Nat) : Word := a + BitVec.ofNat 16 k

/-- The first address of the access `a .. a + len − 1`, in ascending order, that is outside memory (R55, R65). -/
def firstBad (a : Word) (len : Nat) : Option Word :=
  ((List.range len).map (addrAt a)).find? fun b => !inMem b

/-- The `len` bytes from `a`, ascending (R57). -/
def readBytes (m : Memory) (a : Word) (len : Nat) : List Byte :=
  (List.range len).map fun k => m.get (addrAt a k).toNat

/-- Store bytes from `a`, ascending (R57). -/
def writeBytes (m : Memory) (a : Word) : List Byte → Memory
  | [] => m
  | b :: bs => writeBytes (m.put a.toNat b) (a + 1) bs

/-! ## Registers (10_state.md) -/

/-- `V[x]` (R23). -/
def State.getV (s : State) (x : Reg) : Byte := s.v[x.val]

/-- `V[x] <- b` (R23). -/
def State.setV (s : State) (x : Reg) (b : Byte) : State := { s with v := s.v.set x.val b }

/-- `V[15] <- b`, the flag register (R24). -/
def State.setVF (s : State) (b : Byte) : State := s.setV 15 b

/-- `I <- w` (R26). -/
def State.setI (s : State) (w : Word) : State := { s with i := w }

/-- `PC <- w` (R27, 40_execution_cycle.md R97). -/
def State.setPc (s : State) (w : Word) : State := { s with pc := w }

/-- `SP <- n` (R28). -/
def State.setSp (s : State) (n : BitVec 8) : State := { s with sp := n }

/-- `STACK[k] <- w` (R29), for an entry that exists. -/
def State.setStack (s : State) (k : Nat) (w : Word) : State := 
  { s with stack := if h : k < 16 then s.stack.set k w else s.stack }

/-- `DT <- b` (R30). -/
def State.setDt (s : State) (b : Byte) : State := { s with dt := b }

/-- `ST <- b` (R31). -/
def State.setSt (s : State) (b : Byte) : State := { s with st := b }

/-- Replace the memory. -/
def State.setMem (s : State) (m : Memory) : State := { s with mem := m }

/-- Replace the pixels. -/
def State.setFb (s : State) (fb : FrameBuffer) : State := { s with fb := fb }

/-- `DOUBLE <- d` (R35). -/
def State.setDouble (s : State) (d : Bool) : State := { s with double := d }

/-- `VBL <- b` (R36). -/
def State.setVbl (s : State) (b : Bool) : State := { s with vbl := b }

/-- `KW <- w; KWK <- k` (R37). -/
def State.setKeyWait (s : State) (w : KeyWait) (k : Key) : State := { s with kw := w, kwk := k }

/-- Take one draw of the host's free answers (log entry 3). -/
def State.drawn (s : State) : State := { s with draws := s.draws + 1 }

/-- Give the host an event (60_exceptions.md R206). -/
def State.emit (s : State) (e : HostEvent) : State := { s with out := e :: s.out }

/-- Move to another point of the scheduler's sequence. -/
def State.goto (s : State) (p : Phase) : State := { s with phase := p }

/-! ## The program counter (40_execution_cycle.md R97, R98) -/

/-- The default commit: `PC <- PC + 2`. -/
def State.advance (s : State) : State := s.setPc (s.pc + 2)

/-- A skip: `PC <- PC + 4` when the condition holds, else `PC + 2` (00_scope.md R13). -/
def State.skipIf (s : State) (c : Bool) : State := s.setPc (if c then s.pc + 4 else s.pc + 2)

/-! ## Raising a fault (60_exceptions.md R170, R178)

There is no trap entry: the cause, the PC of the cycle and the address are latched, nothing else changes, and there
is no return (R179); the way out is the CPU reset below. -/

/-- `raise F(info)`, applied to the state BEFORE the cycle, so that every write of the cycle is discarded
(40_execution_cycle.md R101). -/
def State.raise (s : State) (c : FaultCause) (info : Word) : State :=
  { s with fault := some { cause := c, pc := s.pc, info := info } }

/-- The code of a cause (60_exceptions.md R168). -/
def FaultCause.code : FaultCause → BitVec 3
  | .stackOverflow => 1
  | .stackUnderflow => 2
  | .memBounds => 3

/-- The code and kind of what the host gets (R168): the fault of a diagnostic, the report of an Invalid word; a screen
push or an audio tick is no error event. -/
def HostEvent.error : HostEvent → Option (Nat × ErrorKind)
  | .faultDiagnostic f => some (f.cause.code.toNat, .fault)
  | .invalidOpcode _ _ => some (8, .report)
  | .screen _ _ _ => none
  | .audio _ => none

/-- The code and kind of a stop of the machine (R168); the model's own stop has none (log entry 2). -/
def Fault.error : Fault → Option (Nat × ErrorKind)
  | .romLoad _ => some (4, .loadFailure)
  | .stackEntryAbsent => none

/-- The CPU reset (70_reset_and_hazards.md R208): the values of 10_state.md R46; the state of R49 is left alone. -/
def State.cpuReset (s : State) : State :=
  { s with
    v := Vector.replicate 16 0, i := 0, sp := 0, dt := 0, st := 0, pc := Params.loadAddress,
    stack := Vector.replicate 16 0, vbl := false, kw := .idle, kwk := 0, fault := none }

/-! ## Pixels (44_display.md R140) -/

/-- `FB[px][py]`; a place outside the 128×64 grid holds no pixel. -/
def FrameBuffer.pixel (fb : FrameBuffer) (px py : Nat) : Bool :=
  if h : py < 64 then fb[py].getLsbD px else false

/-- `FB[px][py] <- FB[px][py] ^ 1`. -/
def FrameBuffer.flip (fb : FrameBuffer) (px py : Nat) : FrameBuffer :=
  if h : py < 64 then fb.set py (fb[py] ^^^ ((1 : BitVec 128) <<< px)) else fb

/-- Every pixel 0 (R142). -/
def FrameBuffer.blank : FrameBuffer := Vector.replicate 64 0

end Sys2Proof.Machine
end

