-- ==== Sys2Proof/Machine/Operands.lean ====
section
/-! DEFINITION. Operand assembly (30_encoding.md R76, R80; 43_index_memory.md R138) and what an operand selects. -/

namespace Sys2Proof.Machine

/-- `zext_16(NNN)` (R76). -/
def zextAddr (nnn : BitVec 12) : Word := nnn.setWidth 16

/-- `zext_16(b)` of a byte (R76). -/
def zextByte (b : Byte) : Word := b.setWidth 16

/-- The X that BNNN's register-indexed reading takes from its address field: bits 8 to 11 (R80). -/
def jumpX (nnn : BitVec 12) : Reg := Fin.ofNat 16 (nnn.extractLsb' 8 4).toNat

/-- The NN of that reading: bits 0 to 7 (R80). -/
def jumpNN (nnn : BitVec 12) : Byte := nnn.extractLsb' 0 8

/-- The quirk record of the state's target (00_scope.md R3). -/
def State.q (s : State) : Quirks := s.target.quirks

/-- The target address of BNNN (41_control_flow.md R108). -/
def jumpOffsetTarget (s : State) (nnn : BitVec 12) : Word :=
  if s.q.jumpOffsetUsesVx then zextByte (s.getV (jumpX nnn)) + zextByte (jumpNN nnn)
  else zextByte (s.getV 0) + zextAddr nnn

/-- The value 8XY6 and 8XYE shift (42_alu.md R123, R125). -/
def shiftOperand (s : State) (x y : Reg) : Byte := if s.q.shiftCopiesY then s.getV y else s.getV x

/-- A key code that the snapshot answers for: `none` above 15 (45_timers_keys.md R163). -/
def keyOfByte (b : Byte) : Option Key := if h : b.toNat < 16 then some ⟨b.toNat, h⟩ else none

/-- `KEYS[k]` (10_state.md R39). -/
def State.keyDown (s : State) (k : Key) : Bool := s.keys[k.val]

/-- The answer `d` of EX9E and EXA1 for the code in `V[x]` (45_timers_keys.md R157, R163): the snapshot's bit, or a
draw for a code above 15. -/
def keyAnswer (s : State) (x : Reg) : Bool :=
  match keyOfByte (s.getV x) with
  | some k => s.keyDown k
  | none => Config.keyDraw s.draws (s.getV x)

/-- The state after that answer is taken: one draw is used up iff the code is above 15. -/
def afterKeyAnswer (s : State) (x : Reg) : State :=
  match keyOfByte (s.getV x) with
  | some _ => s
  | none => s.drawn

/-- The three digits FX33 stores, hundreds first (43_index_memory.md R135). -/
def bcdDigits (b : Byte) : List Byte :=
  [BitVec.ofNat 8 (b.toNat / 100), BitVec.ofNat 8 (b.toNat / 10 % 10), BitVec.ofNat 8 (b.toNat % 10)]

/-- The bytes FX55 stores: `V[0]` to `V[x]` (43_index_memory.md R136). -/
def savedRegs (s : State) (x : Reg) : List Byte := s.v.toList.take (x.val + 1)

/-- The registers after FX65: `V[0]` to `V[x]` from the bytes at `I`, the others as they are (R137). -/
def loadedRegs (s : State) (x : Reg) : Vector Byte 16 :=
  Vector.ofFn fun k => if k.val ≤ x.val then s.mem.get (addrAt s.i k.val).toNat else s.v[k.val]

/-- The final `I` of FX55 and FX65 (R136, R137). -/
def postIncrementI (s : State) (x : Reg) : Word :=
  if s.q.saveLoadIncrementsIByNPlusOne then addrAt s.i (x.val + 1) else addrAt s.i x.val

/-- The shape of a sprite: `(rows, wpx, len)` (44_display.md R146). -/
structure SpriteShape where
  rows : Nat
  wpx : Nat
  len : Nat
  deriving DecidableEq, Repr

/-- `sprite_shape(N)` (R146). -/
def spriteShape (t : Target) (n : BitVec 4) : SpriteShape :=
  if n = 0 ∧ t.quirks.bigSpriteOnN0 = true then { rows := 16, wpx := 16, len := 32 }
  else { rows := n.toNat, wpx := 8, len := n.toNat }

/-- `sprite_bit(buf, wpx, i, j)` (R147, R148), most significant bit leftmost. -/
def spriteBit (buf : List Byte) (wpx i j : Nat) : Bool :=
  if wpx = 16 then (buf.getD (2 * i + j / 8) 0).getLsbD (7 - j % 8) else (buf.getD i 0).getLsbD (7 - j)

/-- The logical width `W` (R141). -/
def State.logicalWidth (s : State) : Nat := if s.double then s.q.physWidth / 2 else s.q.physWidth

/-- The logical height `H` (R141). -/
def State.logicalHeight (s : State) : Nat := if s.double then s.q.physHeight / 2 else s.q.physHeight

end Sys2Proof.Machine
end

