-- ==== Sys2Proof/Machine/Clocks.lean ====
section
/-! DEFINITION. The sound clock, the 60 Hz clock and the bus clock (60_exceptions.md R184 to R193). -/

namespace Sys2Proof.Machine

/-- `clock_sound()` (R187). -/
def clockSound (s : State) : State := if s.st.toNat > 0 then { s with toneReq := true } else s

/-- One tick of a timer: decrement with floor at 0 (R184, R186). -/
def tickDown (b : Byte) : Byte := if b.toNat > 0 then b - 1 else b

/-- `clock_60hz()` (R186). -/
def clock60hz (s : State) : State :=
  { s with dt := tickDown s.dt, st := tickDown s.st, vbl := false }

/-- Replace the input snapshot as a whole (R190, 10_state.md R39). -/
def State.setInput (s : State) (p : Poll) : State :=
  { s with keys := p.keys, lastKey := p.lastKey, exit := p.exit }

/-- `clock_bus()` with the answer of its poll (R189): poll, screen push (R191), audio tick (R192), `TONE_REQ <- 0`. -/
def clockBus (p : Poll) (s : State) : State :=
  let s1 := s.setInput p
  let s2 := s1.emit (.screen s1.fb s1.q.physWidth s1.q.physHeight)
  let s3 := s2.emit (.audio (!s2.toneReq))
  { s3 with toneReq := false }

end Sys2Proof.Machine
end

