-- ==== Sys2Proof/Syntax.lean ====
section
/-! DEFINITION. The instructions: one constructor per row of spec/opcode_table.json, in the order of
30_encoding.md R84. An `Invalid` word (R85) is no instruction. -/

namespace Sys2Proof

/-- The 36 instructions (30_encoding.md R84). Operand ranges are in the types: X, Y are register indexes, NN has
8 bits, NNN 12 bits, N 4 bits (R74). -/
inductive Instr where
  /-- 00E0 CLS (44_display.md R142) -/
  | cls
  /-- 00EE RET (41_control_flow.md R105) -/
  | ret
  /-- 00FE LOW, SUPERCHIP10 only (44_display.md R143) -/
  | low
  /-- 00FF HIGH, SUPERCHIP10 only (44_display.md R144) -/
  | high
  /-- 1NNN JP NNN (41_control_flow.md R106) -/
  | jp (nnn : BitVec 12)
  /-- 2NNN CALL NNN (41_control_flow.md R107) -/
  | call (nnn : BitVec 12)
  /-- 3XNN SE VX, NN (41_control_flow.md R109) -/
  | seImm (x : Reg) (nn : Byte)
  /-- 4XNN SNE VX, NN (41_control_flow.md R110) -/
  | sneImm (x : Reg) (nn : Byte)
  /-- 5XY0 SE VX, VY (41_control_flow.md R111) -/
  | seReg (x y : Reg)
  /-- 9XY0 SNE VX, VY (41_control_flow.md R112) -/
  | sneReg (x y : Reg)
  /-- 6XNN LD VX, NN (42_alu.md R115) -/
  | ldImm (x : Reg) (nn : Byte)
  /-- 7XNN ADD VX, NN (42_alu.md R116) -/
  | addImm (x : Reg) (nn : Byte)
  /-- 8XY0 LD VX, VY (42_alu.md R117) -/
  | ldReg (x y : Reg)
  /-- 8XY1 OR VX, VY (42_alu.md R118) -/
  | orReg (x y : Reg)
  /-- 8XY2 AND VX, VY (42_alu.md R119) -/
  | andReg (x y : Reg)
  /-- 8XY3 XOR VX, VY (42_alu.md R120) -/
  | xorReg (x y : Reg)
  /-- 8XY4 ADD VX, VY (42_alu.md R121) -/
  | addReg (x y : Reg)
  /-- 8XY5 SUB VX, VY (42_alu.md R122) -/
  | subReg (x y : Reg)
  /-- 8XY6 SHR VX, VY (42_alu.md R123) -/
  | shrReg (x y : Reg)
  /-- 8XY7 SUBN VX, VY (42_alu.md R124) -/
  | subnReg (x y : Reg)
  /-- 8XYE SHL VX, VY (42_alu.md R125) -/
  | shlReg (x y : Reg)
  /-- ANNN LD I, NNN (43_index_memory.md R132) -/
  | ldI (nnn : BitVec 12)
  /-- BNNN JP V0, NNN; one encoding with two readings (41_control_flow.md R108, 30_encoding.md R80) -/
  | jpV0 (nnn : BitVec 12)
  /-- CXNN RND VX, NN (42_alu.md R126) -/
  | rnd (x : Reg) (nn : Byte)
  /-- DXYN DRW VX, VY, N (44_display.md R145) -/
  | drw (x y : Reg) (n : BitVec 4)
  /-- EX9E SKP VX (45_timers_keys.md R157) -/
  | skp (x : Reg)
  /-- EXA1 SKNP VX (45_timers_keys.md R158) -/
  | sknp (x : Reg)
  /-- FX07 LD VX, DT (45_timers_keys.md R159) -/
  | ldVxDt (x : Reg)
  /-- FX0A LD VX, K (45_timers_keys.md R162) -/
  | ldVxK (x : Reg)
  /-- FX15 LD DT, VX (45_timers_keys.md R160) -/
  | ldDtVx (x : Reg)
  /-- FX18 LD ST, VX (45_timers_keys.md R161) -/
  | ldStVx (x : Reg)
  /-- FX1E ADD I, VX (43_index_memory.md R133) -/
  | addI (x : Reg)
  /-- FX29 LD F, VX (43_index_memory.md R134) -/
  | ldF (x : Reg)
  /-- FX33 LD B, VX (43_index_memory.md R135) -/
  | ldB (x : Reg)
  /-- FX55 LD [I], VX (43_index_memory.md R136) -/
  | saveRegs (x : Reg)
  /-- FX65 LD VX, [I] (43_index_memory.md R137) -/
  | loadRegs (x : Reg)
  deriving DecidableEq, Repr

end Sys2Proof
end

