-- ==== Sys2Proof/WellFormed.lean ====
section
/-! DEFINITION. Which instruction terms exist on a target. Register indexes and immediates carry their range in
their types, so ONE check is left: LOW and HIGH exist on SUPERCHIP10 only. -/

namespace Sys2Proof

/-- `i` is an instruction of target `t` (30_encoding.md R79, R84 column "targets"): LOW and HIGH need
`Q.has_hires_ops`, every other row is on all targets. -/
def Instr.wellFormed (t : Target) : Instr → Bool
  | .low => t.quirks.hasHiresOps
  | .high => t.quirks.hasHiresOps
  | .cls | .ret | .jp _ | .call _ | .seImm _ _ | .sneImm _ _ | .seReg _ _ | .sneReg _ _ | .ldImm _ _
  | .addImm _ _ | .ldReg _ _ | .orReg _ _ | .andReg _ _ | .xorReg _ _ | .addReg _ _ | .subReg _ _
  | .shrReg _ _ | .subnReg _ _ | .shlReg _ _ | .ldI _ | .jpV0 _ | .rnd _ _ | .drw _ _ _ | .skp _ | .sknp _
  | .ldVxDt _ | .ldVxK _ | .ldDtVx _ | .ldStVx _ | .addI _ | .ldF _ | .ldB _ | .saveRegs _ | .loadRegs _ => true

end Sys2Proof
end

