-- ==== Sys2Proof/Decode.lean ====
section
/-! DEFINITION. Decoding (30_encoding.md R78), total on every word and rejecting by name (R85); then the encoder
(R91), the mask/match table of R84, and the host's reading of a table word. -/

namespace Sys2Proof

/-! ## Fields (30_encoding.md R74, 00_scope.md R11) -/

/-- `op[15:12]`, the major opcode H. -/
def opH (op : Word) : BitVec 4 := op.extractLsb' 12 4

/-- `X = op[11:8]`. -/
def opX (op : Word) : Reg := Fin.ofNat 16 (op.extractLsb' 8 4).toNat

/-- `Y = op[7:4]`. -/
def opY (op : Word) : Reg := Fin.ofNat 16 (op.extractLsb' 4 4).toNat

/-- `N = op[3:0]`. -/
def opN (op : Word) : BitVec 4 := op.extractLsb' 0 4

/-- `NN = op[7:0]`. -/
def opNN (op : Word) : Byte := op.extractLsb' 0 8

/-- `NNN = op[11:0]`. -/
def opNNN (op : Word) : BitVec 12 := op.extractLsb' 0 12

/-! ## The decoder -/

/-- Why a word is `Invalid`: the classes of 30_encoding.md R85, and a byte sequence too short to hold a word. -/
inductive Invalid where
  /-- 0x0NNN other than 00E0, 00EE (and 00FE, 00FF where they exist) -/
  | zeroFamily
  /-- 00FE or 00FF on a target without them (R79) -/
  | notOnTarget
  /-- 5XYN with N ≠ 0 -/
  | fiveFamily
  /-- 8XYN with N in 8, 9, A, B, C, D, F -/
  | eightFamily
  /-- 9XYN with N ≠ 0 -/
  | nineFamily
  /-- EXkk with kk not 9E or A1 -/
  | eFamily
  /-- FXkk with kk not in the list of R78 -/
  | fFamily
  /-- fewer than two bytes -/
  | tooShort
  deriving DecidableEq, Repr

/-- The words with H = 0 (R78, R79). -/
def decodeZero (t : Target) (op : Word) : Except Invalid Instr :=
  if op = 0x00E0 then .ok .cls
  else if op = 0x00EE then .ok .ret
  else if op = 0x00FE then (if t.quirks.hasHiresOps then .ok .low else .error .notOnTarget)
  else if op = 0x00FF then (if t.quirks.hasHiresOps then .ok .high else .error .notOnTarget)
  else .error .zeroFamily

/-- The words with H = 8 (R78). -/
def decodeEight (op : Word) : Except Invalid Instr :=
  let x := opX op
  let y := opY op
  match (opN op).toNat with
  | 0x0 => .ok (.ldReg x y)
  | 0x1 => .ok (.orReg x y)
  | 0x2 => .ok (.andReg x y)
  | 0x3 => .ok (.xorReg x y)
  | 0x4 => .ok (.addReg x y)
  | 0x5 => .ok (.subReg x y)
  | 0x6 => .ok (.shrReg x y)
  | 0x7 => .ok (.subnReg x y)
  | 0xE => .ok (.shlReg x y)
  | _ => .error .eightFamily

/-- The words with H = E (R78). -/
def decodeE (op : Word) : Except Invalid Instr :=
  let x := opX op
  match (opNN op).toNat with
  | 0x9E => .ok (.skp x)
  | 0xA1 => .ok (.sknp x)
  | _ => .error .eFamily

/-- The words with H = F (R78). -/
def decodeF (op : Word) : Except Invalid Instr :=
  let x := opX op
  match (opNN op).toNat with
  | 0x07 => .ok (.ldVxDt x)
  | 0x0A => .ok (.ldVxK x)
  | 0x15 => .ok (.ldDtVx x)
  | 0x18 => .ok (.ldStVx x)
  | 0x1E => .ok (.addI x)
  | 0x29 => .ok (.ldF x)
  | 0x33 => .ok (.ldB x)
  | 0x55 => .ok (.saveRegs x)
  | 0x65 => .ok (.loadRegs x)
  | _ => .error .fFamily

/-- `decode(op, TARGET)` (30_encoding.md R78, R83): dispatch on the high nibble. -/
def decode (t : Target) (op : Word) : Except Invalid Instr :=
  match (opH op).toNat with
  | 0x0 => decodeZero t op
  | 0x1 => .ok (.jp (opNNN op))
  | 0x2 => .ok (.call (opNNN op))
  | 0x3 => .ok (.seImm (opX op) (opNN op))
  | 0x4 => .ok (.sneImm (opX op) (opNN op))
  | 0x5 => if opN op = 0 then .ok (.seReg (opX op) (opY op)) else .error .fiveFamily
  | 0x6 => .ok (.ldImm (opX op) (opNN op))
  | 0x7 => .ok (.addImm (opX op) (opNN op))
  | 0x8 => decodeEight op
  | 0x9 => if opN op = 0 then .ok (.sneReg (opX op) (opY op)) else .error .nineFamily
  | 0xA => .ok (.ldI (opNNN op))
  | 0xB => .ok (.jpV0 (opNNN op))
  | 0xC => .ok (.rnd (opX op) (opNN op))
  | 0xD => .ok (.drw (opX op) (opY op) (opN op))
  | 0xE => decodeE op
  | _ => decodeF op

/-- The word of two bytes in memory order: the first byte is bits 15..8 (20_memory.md R58, 30_encoding.md R73). -/
def wordOfBytes (hi lo : Byte) : Word := hi ++ lo

/-- The first byte in memory of a word, its bits 15..8. -/
def hiByte (w : Word) : Byte := w.extractLsb' 8 8

/-- The second byte in memory of a word, its bits 7..0. -/
def loByte (w : Word) : Byte := w.extractLsb' 0 8

/-- Decode the instruction at the head of a byte sequence and give the rest: every instruction is exactly two
bytes (30_encoding.md R73). -/
def decodeBytes (t : Target) : List Byte → Except Invalid (Instr × List Byte)
  | hi :: lo :: rest => (decode t (wordOfBytes hi lo)).map fun i => (i, rest)
  | _ => .error .tooShort

/-! ## The encoder (30_encoding.md R75, R91) -/

/-- A register index as the 4 bits of a field. -/
def nibble (r : Reg) : BitVec 4 := BitVec.ofNat 4 r.val

/-- FA format: `hhhh NNNN NNNN NNNN`. -/
def encFA (h : BitVec 4) (nnn : BitVec 12) : Word := h ++ nnn

/-- FI format: `hhhh XXXX NNNN NNNN`. -/
def encFI (h : BitVec 4) (x : Reg) (nn : Byte) : Word := h ++ nibble x ++ nn

/-- FR and FD formats: `hhhh XXXX YYYY ssss`, the last nibble a sub-opcode (FR) or N (FD). -/
def encFR (h : BitVec 4) (x y : Reg) (n : BitVec 4) : Word := h ++ nibble x ++ nibble y ++ n

/-- The word of an instruction (R91). FS format is FI with the sub-opcode byte in place of NN. -/
def encode : Instr → Word
  | .cls => 0x00E0
  | .ret => 0x00EE
  | .low => 0x00FE
  | .high => 0x00FF
  | .jp nnn => encFA 0x1 nnn
  | .call nnn => encFA 0x2 nnn
  | .seImm x nn => encFI 0x3 x nn
  | .sneImm x nn => encFI 0x4 x nn
  | .seReg x y => encFR 0x5 x y 0x0
  | .sneReg x y => encFR 0x9 x y 0x0
  | .ldImm x nn => encFI 0x6 x nn
  | .addImm x nn => encFI 0x7 x nn
  | .ldReg x y => encFR 0x8 x y 0x0
  | .orReg x y => encFR 0x8 x y 0x1
  | .andReg x y => encFR 0x8 x y 0x2
  | .xorReg x y => encFR 0x8 x y 0x3
  | .addReg x y => encFR 0x8 x y 0x4
  | .subReg x y => encFR 0x8 x y 0x5
  | .shrReg x y => encFR 0x8 x y 0x6
  | .subnReg x y => encFR 0x8 x y 0x7
  | .shlReg x y => encFR 0x8 x y 0xE
  | .ldI nnn => encFA 0xA nnn
  | .jpV0 nnn => encFA 0xB nnn
  | .rnd x nn => encFI 0xC x nn
  | .drw x y n => encFR 0xD x y n
  | .skp x => encFI 0xE x 0x9E
  | .sknp x => encFI 0xE x 0xA1
  | .ldVxDt x => encFI 0xF x 0x07
  | .ldVxK x => encFI 0xF x 0x0A
  | .ldDtVx x => encFI 0xF x 0x15
  | .ldStVx x => encFI 0xF x 0x18
  | .addI x => encFI 0xF x 0x1E
  | .ldF x => encFI 0xF x 0x29
  | .ldB x => encFI 0xF x 0x33
  | .saveRegs x => encFI 0xF x 0x55
  | .loadRegs x => encFI 0xF x 0x65

/-! ## The opcode map (30_encoding.md R84) -/

/-- One row of the table of R84: "a word `w` is the instruction iff `w & mask = match` (and the target condition
holds)". -/
structure OpRow where
  pattern : Word
  mask : Word
  /-- the row is on SUPERCHIP10 only -/
  schipOnly : Bool
  deriving DecidableEq, Repr

/-- The rows of R84, in its order: H = 0 to 9. -/
def opTableLow : List OpRow :=
  [⟨0x00E0, 0xFFFF, false⟩, ⟨0x00EE, 0xFFFF, false⟩, ⟨0x00FE, 0xFFFF, true⟩, ⟨0x00FF, 0xFFFF, true⟩,
   ⟨0x1000, 0xF000, false⟩, ⟨0x2000, 0xF000, false⟩, ⟨0x3000, 0xF000, false⟩, ⟨0x4000, 0xF000, false⟩,
   ⟨0x5000, 0xF00F, false⟩, ⟨0x9000, 0xF00F, false⟩, ⟨0x6000, 0xF000, false⟩, ⟨0x7000, 0xF000, false⟩] ++
  [⟨0x8000, 0xF00F, false⟩, ⟨0x8001, 0xF00F, false⟩, ⟨0x8002, 0xF00F, false⟩, ⟨0x8003, 0xF00F, false⟩,
   ⟨0x8004, 0xF00F, false⟩, ⟨0x8005, 0xF00F, false⟩, ⟨0x8006, 0xF00F, false⟩, ⟨0x8007, 0xF00F, false⟩,
   ⟨0x800E, 0xF00F, false⟩]

/-- The rows of R84, in its order: H = A to F. -/
def opTableHigh : List OpRow :=
  [⟨0xA000, 0xF000, false⟩, ⟨0xB000, 0xF000, false⟩, ⟨0xC000, 0xF000, false⟩, ⟨0xD000, 0xF000, false⟩,
   ⟨0xE09E, 0xF0FF, false⟩, ⟨0xE0A1, 0xF0FF, false⟩] ++
  [⟨0xF007, 0xF0FF, false⟩, ⟨0xF00A, 0xF0FF, false⟩, ⟨0xF015, 0xF0FF, false⟩, ⟨0xF018, 0xF0FF, false⟩,
   ⟨0xF01E, 0xF0FF, false⟩, ⟨0xF029, 0xF0FF, false⟩, ⟨0xF033, 0xF0FF, false⟩, ⟨0xF055, 0xF0FF, false⟩,
   ⟨0xF065, 0xF0FF, false⟩]

/-- The 36 rows of R84. -/
def opTable : List OpRow := opTableLow ++ opTableHigh

/-- The row matches the word on the target (R84). -/
def OpRow.hits (r : OpRow) (t : Target) (w : Word) : Bool :=
  (w &&& r.mask == r.pattern) && (!r.schipOnly || t.quirks.hasHiresOps)

/-- The row of R84 that an instruction is. -/
def Instr.row : Instr → OpRow
  | .cls => ⟨0x00E0, 0xFFFF, false⟩
  | .ret => ⟨0x00EE, 0xFFFF, false⟩
  | .low => ⟨0x00FE, 0xFFFF, true⟩
  | .high => ⟨0x00FF, 0xFFFF, true⟩
  | .jp _ => ⟨0x1000, 0xF000, false⟩
  | .call _ => ⟨0x2000, 0xF000, false⟩
  | .seImm _ _ => ⟨0x3000, 0xF000, false⟩
  | .sneImm _ _ => ⟨0x4000, 0xF000, false⟩
  | .seReg _ _ => ⟨0x5000, 0xF00F, false⟩
  | .sneReg _ _ => ⟨0x9000, 0xF00F, false⟩
  | .ldImm _ _ => ⟨0x6000, 0xF000, false⟩
  | .addImm _ _ => ⟨0x7000, 0xF000, false⟩
  | .ldReg _ _ => ⟨0x8000, 0xF00F, false⟩
  | .orReg _ _ => ⟨0x8001, 0xF00F, false⟩
  | .andReg _ _ => ⟨0x8002, 0xF00F, false⟩
  | .xorReg _ _ => ⟨0x8003, 0xF00F, false⟩
  | .addReg _ _ => ⟨0x8004, 0xF00F, false⟩
  | .subReg _ _ => ⟨0x8005, 0xF00F, false⟩
  | .shrReg _ _ => ⟨0x8006, 0xF00F, false⟩
  | .subnReg _ _ => ⟨0x8007, 0xF00F, false⟩
  | .shlReg _ _ => ⟨0x800E, 0xF00F, false⟩
  | .ldI _ => ⟨0xA000, 0xF000, false⟩
  | .jpV0 _ => ⟨0xB000, 0xF000, false⟩
  | .rnd _ _ => ⟨0xC000, 0xF000, false⟩
  | .drw _ _ _ => ⟨0xD000, 0xF000, false⟩
  | .skp _ => ⟨0xE09E, 0xF0FF, false⟩
  | .sknp _ => ⟨0xE0A1, 0xF0FF, false⟩
  | .ldVxDt _ => ⟨0xF007, 0xF0FF, false⟩
  | .ldVxK _ => ⟨0xF00A, 0xF0FF, false⟩
  | .ldDtVx _ => ⟨0xF015, 0xF0FF, false⟩
  | .ldStVx _ => ⟨0xF018, 0xF0FF, false⟩
  | .addI _ => ⟨0xF01E, 0xF0FF, false⟩
  | .ldF _ => ⟨0xF029, 0xF0FF, false⟩
  | .ldB _ => ⟨0xF033, 0xF0FF, false⟩
  | .saveRegs _ => ⟨0xF055, 0xF0FF, false⟩
  | .loadRegs _ => ⟨0xF065, 0xF0FF, false⟩

/-! ## The host's table words (log entry 10) -/

/-- The instruction word whose bits, numbered as spec/opcode_table.json numbers them, are the low `nbits` bits of
`w`; the bits above are 0. An instruction is one 16-bit word, so bit 0 is the word's least significant bit. -/
def tableWord (nbits w : Nat) : Word := BitVec.ofNat 16 (w % 2 ^ nbits)

/-- The instruction's bytes as memory holds them: the high byte first (20_memory.md R58). -/
def tableBytes (nbits w : Nat) : List Byte :=
  [hiByte (tableWord nbits w), loByte (tableWord nbits w)]

/-- The instruction the decoder reads from those bytes, on the target of `State.reset`. -/
def decodeTableWord (nbits w : Nat) : Option Instr :=
  match decodeBytes Params.resetTarget (tableBytes nbits w) with
  | .ok (i, _) => some i
  | .error _ => none

end Sys2Proof
end

