-- ==== Sys2Proof/Machine/Flags.lean ====
section
/-! DEFINITION. Every value VF takes as a flag (42_alu.md R130): the byte 1 or 0. -/

namespace Sys2Proof.Machine

/-- The flag byte of a condition. -/
def flagByte (c : Bool) : Byte := if c then 1 else 0

/-- 8XY4: the carry, `x + y > 255` before the sum wraps (R121). -/
def carryFlag (x y : Byte) : Byte := flagByte (decide (x.toNat + y.toNat > 255))

/-- 8XY5 and 8XY7: no borrow in `x - y`, an unsigned comparison (R122, R124, R129). -/
def notBorrowFlag (x y : Byte) : Byte := flagByte (decide (x.toNat ≥ y.toNat))

/-- 8XY6: bit 0 of the shifted value (R123). -/
def shiftedOutRight (v : Byte) : Byte := v &&& 1

/-- 8XYE: bit 7 of the shifted value (R125). -/
def shiftedOutLeft (v : Byte) : Byte := (v >>> 7) &&& 1

/-- 8XY1, 8XY2, 8XY3: VF is reset (R118). -/
def logicFlag : Byte := 0

/-- DXYN: the collision flag (44_display.md R153). -/
def collisionFlag (collided : Bool) : Byte := flagByte collided

end Sys2Proof.Machine
end

