-- ==== Sys2Proof/Machine/Alu.lean ====
section
/-! DEFINITION. The register and arithmetic instructions (42_alu.md). Every source is read from the state before the
instruction and VF is written last (00_scope.md R14); `next_pc = PC + 2`; none of them faults. -/

namespace Sys2Proof.Machine

/-- The shape of this file: `V[x] <- r`, `PC <- PC + 2`. -/
def writeReg (x : Reg) (r : Byte) (s : State) : Res := .next (s.setV x r).advance

/-- The shape with a flag: `V[x] <- r`, then `V[15] <- f`, `PC <- PC + 2`. -/
def writeRegFlag (x : Reg) (r f : Byte) (s : State) : Res := .next ((s.setV x r).setVF f).advance

/-- The shape of 8XY1, 8XY2, 8XY3: the flag is reset under `Q.resets_vf_on_logic_ops` (R118). -/
def writeRegLogic (x : Reg) (r : Byte) (s : State) : Res :=
  if s.q.resetsVfOnLogicOps then writeRegFlag x r logicFlag s else writeReg x r s

/-- 6XNN (R115). -/
def execLdImm (x : Reg) (nn : Byte) (s : State) : Res := writeReg x nn s

/-- 7XNN (R116): wraps modulo 256, no flag. -/
def execAddImm (x : Reg) (nn : Byte) (s : State) : Res := writeReg x (s.getV x + nn) s

/-- 8XY0 (R117). -/
def execLdReg (x y : Reg) (s : State) : Res := writeReg x (s.getV y) s

/-- 8XY1 (R118). -/
def execOrReg (x y : Reg) (s : State) : Res := writeRegLogic x (s.getV x ||| s.getV y) s

/-- 8XY2 (R119). -/
def execAndReg (x y : Reg) (s : State) : Res := writeRegLogic x (s.getV x &&& s.getV y) s

/-- 8XY3 (R120). -/
def execXorReg (x y : Reg) (s : State) : Res := writeRegLogic x (s.getV x ^^^ s.getV y) s

/-- 8XY4 (R121). -/
def execAddReg (x y : Reg) (s : State) : Res :=
  writeRegFlag x (s.getV x + s.getV y) (carryFlag (s.getV x) (s.getV y)) s

/-- 8XY5 (R122). -/
def execSubReg (x y : Reg) (s : State) : Res :=
  writeRegFlag x (s.getV x - s.getV y) (notBorrowFlag (s.getV x) (s.getV y)) s

/-- 8XY6 (R123). -/
def execShrReg (x y : Reg) (s : State) : Res :=
  let w := shiftOperand s x y
  writeRegFlag x (w >>> 1) (shiftedOutRight w) s

/-- 8XY7 (R124). -/
def execSubnReg (x y : Reg) (s : State) : Res :=
  writeRegFlag x (s.getV y - s.getV x) (notBorrowFlag (s.getV y) (s.getV x)) s

/-- 8XYE (R125). -/
def execShlReg (x y : Reg) (s : State) : Res :=
  let w := shiftOperand s x y
  writeRegFlag x (w <<< 1) (shiftedOutLeft w) s

/-- CXNN with the drawn byte as an argument (R126). -/
def rndWith (r : Byte) (x : Reg) (nn : Byte) (s : State) : Res := writeReg x (r &&& nn) s

/-- CXNN (R126): the byte is a draw, used up whatever NN is (log entry 3). -/
def execRnd (x : Reg) (nn : Byte) (s : State) : Res := rndWith (Config.randomByte s.draws) x nn s.drawn

end Sys2Proof.Machine
end

