-- ==== Sys2Proof/Machine/ControlFlow.lean ====
section
/-! DEFINITION. Jumps, calls, returns and skips (41_control_flow.md). No target is checked when it is set (R114). -/

namespace Sys2Proof.Machine

/-- 00EE (R105): underflow with an empty stack; else pop the CALL's own address and continue 2 after it. A state with
SP over 16 has no entry SP − 1 (log entry 2). -/
def execRet (s : State) : Res :=
  if s.sp = 0 then .next (s.raise .stackUnderflow 0)
  else
    match s.stack[(s.sp - 1).toNat]? with
    | some w => .next ((s.setSp (s.sp - 1)).setPc (w + 2))
    | none => .fault .stackEntryAbsent

/-- 1NNN (R106). -/
def execJp (nnn : BitVec 12) (s : State) : Res := .next (s.setPc (zextAddr nnn))

/-- 2NNN (R107): overflow with `P_STACK_LIMIT` entries in use (log entry 2); else push the CALL's own address. -/
def execCall (nnn : BitVec 12) (s : State) : Res :=
  if Params.stackLimit ≤ s.sp.toNat then .next (s.raise .stackOverflow 0)
  else .next (((s.setStack s.sp.toNat s.pc).setSp (s.sp + 1)).setPc (zextAddr nnn))

/-- BNNN (R108). -/
def execJpV0 (nnn : BitVec 12) (s : State) : Res := .next (s.setPc (jumpOffsetTarget s nnn))

/-- 3XNN (R109). -/
def execSeImm (x : Reg) (nn : Byte) (s : State) : Res := .next (s.skipIf (s.getV x == nn))

/-- 4XNN (R110). -/
def execSneImm (x : Reg) (nn : Byte) (s : State) : Res := .next (s.skipIf (s.getV x != nn))

/-- 5XY0 (R111). -/
def execSeReg (x y : Reg) (s : State) : Res := .next (s.skipIf (s.getV x == s.getV y))

/-- 9XY0 (R112). -/
def execSneReg (x y : Reg) (s : State) : Res := .next (s.skipIf (s.getV x != s.getV y))

end Sys2Proof.Machine
end

