-- ==== Sys2Proof/Machine/IndexMemory.lean ====
section
/-! DEFINITION. The index register and memory instructions (43_index_memory.md). Every address is checked before the
first transfer (R139); `next_pc = PC + 2`. -/

namespace Sys2Proof.Machine

/-- The bounds check in front of an access of `len` bytes at `I`: the fault with the first bad address, or the access
(R135 to R137, 44_display.md R145). -/
def checked (s : State) (len : Nat) (access : Res) : Res :=
  match firstBad s.i len with
  | some a => .next (s.raise .memBounds a)
  | none => access

/-- ANNN (R132). -/
def execLdI (nnn : BitVec 12) (s : State) : Res := .next (s.setI (zextAddr nnn)).advance

/-- FX1E (R133): modulo 2^16, no flag, no bounds check. -/
def execAddI (x : Reg) (s : State) : Res := .next (s.setI (s.i + zextByte (s.getV x))).advance

/-- FX29 (R134): VX is not masked. -/
def execLdF (x : Reg) (s : State) : Res := .next (s.setI (zextByte (s.getV x) * 5)).advance

/-- FX33 (R135). -/
def execLdB (x : Reg) (s : State) : Res :=
  checked s 3 (.next (s.setMem (writeBytes s.mem s.i (bcdDigits (s.getV x)))).advance)

/-- FX55 (R136). -/
def execSaveRegs (x : Reg) (s : State) : Res :=
  checked s (x.val + 1)
    (.next ((s.setMem (writeBytes s.mem s.i (savedRegs s x))).setI (postIncrementI s x)).advance)

/-- FX65 (R137). -/
def execLoadRegs (x : Reg) (s : State) : Res :=
  checked s (x.val + 1) (.next ({ s with v := loadedRegs s x }.setI (postIncrementI s x)).advance)

end Sys2Proof.Machine
end

