-- ==== Sys2Proof/Machine/Display.lean ====
section
/-! DEFINITION. The display instructions and the sprite blitter (44_display.md). -/

namespace Sys2Proof.Machine

/-! ## The blitter (R146 to R152) -/

/-- Flip one physical pixel, and remember whether it was set before (R151). -/
def flipOne (acc : FrameBuffer × Bool) (p : Nat × Nat) : FrameBuffer × Bool :=
  (acc.1.flip p.1 p.2, acc.2 || acc.1.pixel p.1 p.2)

/-- The physical pixels of a logical pixel: itself, or its 2×2 block when doubling is on (R151). -/
def physPixels (double : Bool) (p : Nat × Nat) : List (Nat × Nat) :=
  if double then
    [(2 * p.1, 2 * p.2), (2 * p.1, 2 * p.2 + 1), (2 * p.1 + 1, 2 * p.2), (2 * p.1 + 1, 2 * p.2 + 1)]
  else [p]

/-- `plot(px, py)` with the collision flag so far (R151). -/
def plot (double : Bool) (acc : FrameBuffer × Bool) (p : Nat × Nat) : FrameBuffer × Bool :=
  (physPixels double p).foldl flipOne acc

/-- Where a sprite bit at column `j`, row `i` goes, from the start `(x, y)` on a `w × h` screen: wrapped, or clipped
when it falls outside (R150). -/
def placePixel (wrap : Bool) (w h x y j i : Nat) : Option (Nat × Nat) :=
  if wrap then some ((x + j) % w, (y + i) % h)
  else if x + j < w ∧ y + i < h then some (x + j, y + i)
  else none

/-- The logical pixels a sprite plots, in the order of R145's loops. -/
def spritePixels (wrap : Bool) (sh : SpriteShape) (buf : List Byte) (w h x y : Nat) : List (Nat × Nat) :=
  (List.range sh.rows).flatMap fun i =>
    (List.range sh.wpx).filterMap fun j =>
      if spriteBit buf sh.wpx i j then placePixel wrap w h x y j i else none

/-- The whole draw: the pixels after it and the collision flag (R145, R152). -/
def blit (double : Bool) (fb : FrameBuffer) (ps : List (Nat × Nat)) : FrameBuffer × Bool :=
  ps.foldl (plot double) (fb, false)

/-- The logical pixels DXYN plots in a state (R145): start coordinates modulo the logical size (R149), sprite bytes
from `I` (R146). -/
def drawnPixels (wrap : Bool) (x y : Reg) (n : BitVec 4) (s : State) : List (Nat × Nat) :=
  let sh := spriteShape s.target n
  let w := s.logicalWidth
  let h := s.logicalHeight
  spritePixels wrap sh (readBytes s.mem s.i sh.len) w h ((s.getV x).toNat % w) ((s.getV y).toNat % h)

/-! ## The instructions -/

/-- 00E0 (R142). -/
def execCls (s : State) : Res := .next (s.setFb FrameBuffer.blank).advance

/-- 00FE (R143): sets DOUBLE, the pixels stay. -/
def execLow (s : State) : Res := .next (s.setDouble true).advance

/-- 00FF (R144): clears DOUBLE, the pixels stay. -/
def execHigh (s : State) : Res := .next (s.setDouble false).advance

/-- DXYN (R145): the pixels, VF last of the registers (R153), VBL under `Q.vblank_wait` (R154). -/
def execDrw (x y : Reg) (n : BitVec 4) (s : State) : Res :=
  let r := blit s.double s.fb (drawnPixels Params.wrapPixels x y n s)
  checked s (spriteShape s.target n).len
    (.next (((s.setFb r.1).setVF (collisionFlag r.2)).setVbl (s.vbl || s.q.vblankWait)).advance)

end Sys2Proof.Machine
end

