-- ==== Sys2Proof/Machine/TimersKeys.lean ====
section
/-! DEFINITION. The key and timer instructions (45_timers_keys.md). `KEYS` and `LASTKEY` are the snapshot that only
the bus clock's poll changes (R164). -/

namespace Sys2Proof.Machine

/-- A skip on the key answer, with the answer as an argument (R157, R158, R163). -/
def skipOnKey (answer wanted : Bool) (s : State) : Res := .next (s.skipIf (answer == wanted))

/-- EX9E (R157). -/
def execSkp (x : Reg) (s : State) : Res := skipOnKey (keyAnswer s x) true (afterKeyAnswer s x)

/-- EXA1 (R158). -/
def execSknp (x : Reg) (s : State) : Res := skipOnKey (keyAnswer s x) false (afterKeyAnswer s x)

/-- FX07 (R159). -/
def execLdVxDt (x : Reg) (s : State) : Res := .next (s.setV x s.dt).advance

/-- FX15 (R160). -/
def execLdDtVx (x : Reg) (s : State) : Res := .next (s.setDt (s.getV x)).advance

/-- FX18 (R161). -/
def execLdStVx (x : Reg) (s : State) : Res := .next (s.setSt (s.getV x)).advance

/-- A key code as the byte FX0A records (R162). -/
def keyByte (k : Key) : Byte := BitVec.ofNat 8 k.val

/-- FX0A with the key-click value as an argument (R162). PC stays where the instruction halts. -/
def keyWaitWith (click : Byte) (x : Reg) (s : State) : Res :=
  match s.kw with
  | .idle =>
    match s.lastKey with
    | none => .next s
    | some k => .next (((s.setV x (keyByte k)).setSt click).setKeyWait .held k)
  | .held => if s.keyDown s.kwk then .next s else .next (s.setKeyWait .idle s.kwk).advance

/-- FX0A (R162), with the open value `P_KEYCLICK_ST` (log entry 4). -/
def execLdVxK (x : Reg) (s : State) : Res := keyWaitWith Config.keyClickSt x s

end Sys2Proof.Machine
end

