-- ==== Sys2Proof/Machine/Cycle.lean ====
section
/-! DEFINITION. The fetch-decode-execute cycle `clock_sys` (40_execution_cycle.md R93). -/

namespace Sys2Proof.Machine

/-- `clock_sys` does nothing in this state (R94). -/
def State.suppressed (s : State) : Bool := s.fault.isSome || s.vbl

/-- The word at PC, big-endian, when both bytes are in memory (R95). -/
def fetchWord (s : State) : Word :=
  wordOfBytes (s.mem.get (addrAt s.pc 0).toNat) (s.mem.get (addrAt s.pc 1).toNat)

/-- `execute(Invalid)` (R100): report `(PC, op)`, change nothing, `PC <- PC + 2`. -/
def execInvalid (op : Word) (s : State) : Res := .next (s.emit (.invalidOpcode s.pc op)).advance

/-- Decode and execute a fetched word (R96, R100). -/
def execWord (op : Word) (s : State) : Res :=
  match decode s.target op with
  | .ok i => exec i s
  | .error _ => execInvalid op s

/-- `clock_sys()` (R93 to R97): the fetch's bounds come first (60_exceptions.md R176). -/
def clockSys (s : State) : Res :=
  if s.suppressed then .next s
  else
    match firstBad s.pc 2 with
    | some a => .next (s.raise .memBounds a)
    | none => execWord (fetchWord s) s

end Sys2Proof.Machine
end

