-- ==== Sys2Proof/Machine/Scheduler.lean ====
section
/-! DEFINITION. The program load (70_reset_and_hazards.md R212 to R214), the scheduler's loop (60_exceptions.md R196
to R203) and the on-demand reset (R209), one step of the sequence at a time (log entry 9). -/

namespace Sys2Proof.Machine

/-! ## The program load -/

/-- Load a ROM (R212 to R214): checked before any byte is written. -/
def loadRom (rom : Option (List Byte)) (s : State) : Res :=
  match rom with
  | none => .fault (.romLoad .missing)
  | some r =>
    if r.length = 0 then .fault (.romLoad .empty)
    else if Params.maxRom < r.length then .fault (.romLoad .tooLarge)
    else .next ((s.setMem (writeBytes s.mem Params.loadAddress r)).goto .start)

/-! ## The loop, with the host's answers as arguments -/

/-- Entering `run()` at wall-clock time `t` (R196): `T_LAST <- now(); CREDIT <- 0`. -/
def enterRun (t : Rat) (s : State) : State := { s with tLast := t, credit := 0, phase := .wait }

/-- `c = CREDIT + delta * P_IPS` (R198). -/
def cycleCredit (credit delta : Rat) : Rat := credit + delta * Params.ips

/-- One iteration of the loop that finds the wall clock at `t` (R196 to R198): a frame fires iff at least `P_FRAME` has
passed since the last one; otherwise the loop sleeps, which has no effect (R202). -/
def iterate (t : Rat) (s : State) : State :=
  if Params.framePeriod ≤ t - s.tLast then
    let c := cycleCredit s.credit (t - s.tLast)
    { s with credit := c - (c.floor : Rat), phase := .frame c.floor.toNat t }
  else s

/-- What follows a `clock_sys()` in its slot (R196, R200, R203): a latched fault ends the loop at once and the host
gets the diagnostic (R174); otherwise the sound clock. -/
def afterCycle (slotsLeft : Nat) (t : Rat) (s : State) : State :=
  match s.fault with
  | some f => (s.emit (.faultDiagnostic f)).goto (.stopped .fault)
  | none => (clockSound s).goto (.frame slotsLeft t)

/-- One cycle slot (R199): `clock_sys()`, the fault check, `clock_sound()`. -/
def slot (slotsLeft : Nat) (t : Rat) (s : State) : Res :=
  match clockSys s with
  | .next s1 => .next (afterCycle slotsLeft t s1)
  | .fault r => .fault r
  | .refused r => .refused r

/-- The end of a frame that fired at `t` (R196, R203): `clock_60hz()`, `T_LAST <- t`, the exit check. -/
def endFrame (t : Rat) (s : State) : State :=
  let s1 := clock60hz s
  { s1 with tLast := t, phase := if s1.exit then .stopped .exit else .wait }

/-! ## The sequence -/

/-- Between two frames (R209, R196): a requested reset happens now and the scheduler goes on; otherwise one iteration of
the loop, which finds the wall clock at `t`. Either way one draw is taken. -/
def betweenFramesWith (resetAsked : Bool) (t : Rat) (s : State) : State :=
  if resetAsked then s.cpuReset.drawn else (iterate t s).drawn

/-- Between two frames, with the host's answers (log entries 13, 14). -/
def betweenFrames (s : State) : State :=
  betweenFramesWith (Config.resetRequest s.draws) (Config.now s.draws) s

/-- After the loop has ended (R209, 60_exceptions.md R180): a requested reset is followed by a new start of the loop;
otherwise the machine stays as it is. Either way one draw is taken. -/
def afterStopWith (resetAsked : Bool) (s : State) : State :=
  if resetAsked then (s.cpuReset.goto .start).drawn else s.drawn

/-- After the loop has ended, with the host's answer (log entry 14). -/
def afterStop (s : State) : State := afterStopWith (Config.resetRequest s.draws) s

/-- One step of the machine, by where it stands. -/
def schedule (s : State) : Res :=
  match s.phase with
  | .load => loadRom Config.rom s
  | .start => .next (enterRun (Config.now s.draws) s).drawn
  | .wait => .next (betweenFrames s)
  | .frame (n + 1) t => slot n t s
  | .frame 0 t => .next ((clockBus (Config.poll s.draws) s).drawn.goto (.tick t))
  | .tick t => .next (endFrame t s)
  | .stopped _ => .next (afterStop s)

/-! ## Placing an instruction for the host (log entries 5 and 10) -/

/-- The phase in which the next step is a cycle slot. -/
def slotPhase (p : Phase) (t : Rat) : Phase :=
  match p with
  | .frame (n + 1) u => .frame (n + 1) u
  | .frame 0 _ | .load | .start | .wait | .tick _ | .stopped _ => .frame 1 t

/-- The PC at which a two-byte fetch succeeds: the state's own, or the load address where that one cannot be fetched
from. -/
def fetchablePc (pc : Word) : Word := if (firstBad pc 2).isNone then pc else Params.loadAddress

/-- Store a word's bytes where the next cycle slot fetches them, and make that slot the next step and unsuppressed. -/
def placeWord (s : State) (bytes : List Byte) : State :=
  { s with
    pc := fetchablePc s.pc, mem := writeBytes s.mem (fetchablePc s.pc) bytes, vbl := false, fault := none,
    phase := slotPhase s.phase s.tLast }

end Sys2Proof.Machine
end

