-- ==== Sys2Proof/Machine/Step.lean ====
section
/-! DEFINITION. One step of the machine, and the host's way to place one instruction. -/

namespace Sys2Proof.Machine

/-- One step: the next event of the construction sequence and of the scheduler's loop (Machine/Scheduler.lean). -/
def step (s : State) : Host.Outcome State Fault Refusal := schedule s

/-- The instruction of a table word, stored where the next step fetches it (log entry 10). -/
def State.withFetchWord (s : State) (nbits w : Nat) : State := placeWord s (tableBytes nbits w)

end Sys2Proof.Machine
end

