-- ==== Sys2Proof/Safety.lean ====
section
/-! DEFINITION. What counts as a sound state and as a safe run, in the terms the statements use. -/

namespace Sys2Proof.Machine

/-- The registers of the fault latch tell the truth (10_state.md R38, 40_execution_cycle.md R101): the PC still
addresses the faulting instruction, a stack fault has info 0, a bounds fault names an address outside memory. -/
def State.faultPrecise (s : State) : Prop :=
  ∀ f, s.fault = some f →
    f.pc = s.pc ∧ (f.cause = .memBounds → inMem f.info = false) ∧ (f.cause ≠ .memBounds → f.info = 0)

/-- While FX0A holds a key (45_timers_keys.md R162, corner cases): the word at PC is an FX0A, and the register it
names holds the key. -/
def State.heldAtKeyWait (s : State) : Prop :=
  s.kw = .held →
    firstBad s.pc 2 = none ∧
      ∃ x, decode s.target (fetchWord s) = .ok (.ldVxK x) ∧ s.getV x = keyByte s.kwk

/-- Only pixels of the target's physical grid are lit (10_state.md R34). -/
def State.gridClean (s : State) : Prop :=
  ∀ px py, s.fb.pixel px py = true → px < s.q.physWidth ∧ py < s.q.physHeight

/-- The wall-clock time at which the frame in progress fired. -/
def Phase.firedAt : Phase → Option Rat
  | .frame _ u => some u
  | .tick u => some u
  | .load | .start | .wait | .stopped _ => none

/-- The wall clock never runs back (60_exceptions.md R206): `T_LAST` is not ahead of it, and a frame in progress fired at
least `P_FRAME` after `T_LAST` (R204) and not ahead of it. -/
def State.clockForward (s : State) : Prop :=
  s.tLast ≤ Config.now s.draws ∧
    ∀ u, s.phase.firedAt = some u → s.tLast + Params.framePeriod ≤ u ∧ u ≤ Config.now s.draws

/-- The invariant of the machine (10_state.md R44 and what the spec says of reachable states elsewhere). -/
structure State.Inv (s : State) : Prop where
  /-- memory keeps its canonical form (log entry 12) -/
  memWf : s.mem.wf = true
  /-- `0 ≤ SP ≤ 15` (R44) -/
  spRange : s.sp.toNat ≤ 15
  /-- `STACK[15]` is never written after reset (R29) -/
  topEntry : s.stack[15] = 0
  /-- `DOUBLE = 0` unless `TARGET = SUPERCHIP10` (R44) -/
  doubleTarget : s.double = true → s.target = .superchip10
  grid : s.gridClean
  /-- `CREDIT` is in [0, 1) (R42) -/
  creditRange : 0 ≤ s.credit ∧ s.credit < 1
  clock : s.clockForward
  /-- a latched fault and a loop ended by a fault go together (60_exceptions.md R203) -/
  faultStops : s.fault.isSome = true ↔ s.phase = .stopped .fault
  faultPrecise : s.faultPrecise
  held : s.heldAtKeyWait
  /-- no key is held before the ROM is loaded -/
  loadIdle : s.phase = .load → s.kw = .idle

/-- A state in which the next step is a cycle slot that executes an instruction (40_execution_cycle.md R94, R95). -/
def State.ready (s : State) : Prop :=
  s.suppressed = false ∧ firstBad s.pc 2 = none

/-- A run of `k` steps from `s` that neither stops nor latches a fault: what the spec calls a run without a fault
(00_scope.md R20). -/
def safeFor : Nat → State → Prop
  | 0, s => s.fault = none
  | k + 1, s => s.fault = none ∧ ∃ t, step s = .next t ∧ safeFor k t

/-- Execute instructions one after another, each from the state the one before it left. -/
def execList : List Instr → State → Res
  | [], s => .next s
  | i :: is, s =>
    match exec i s with
    | .next t => execList is t
    | .fault r => .fault r
    | .refused r => .refused r

/-- The general registers an instruction may write: its destination, and VF where the spec names VF (10_state.md R24,
R25). -/
def writesReg (i : Instr) (r : Reg) : Bool :=
  match i with
  | .ldImm x _ | .addImm x _ | .ldReg x _ | .rnd x _ | .ldVxDt x | .ldVxK x => r == x
  | .orReg x _ | .andReg x _ | .xorReg x _ | .addReg x _ | .subReg x _ | .shrReg x _ | .subnReg x _
  | .shlReg x _ => r == x || r == 15
  | .drw _ _ _ => r == 15
  | .loadRegs x => decide (r ≤ x)
  | .cls | .ret | .low | .high | .jp _ | .call _ | .seImm _ _ | .sneImm _ _ | .seReg _ _ | .sneReg _ _ | .ldI _
  | .jpV0 _ | .skp _ | .sknp _ | .ldDtVx _ | .ldStVx _ | .addI _ | .ldF _ | .ldB _ | .saveRegs _ => false

/-- How many bytes an instruction stores, from `I` up (20_memory.md R57, the rows that write). -/
def storedLen : Instr → Nat
  | .ldB _ => 3
  | .saveRegs x => x.val + 1
  | .cls | .ret | .low | .high | .jp _ | .call _ | .seImm _ _ | .sneImm _ _ | .seReg _ _ | .sneReg _ _ | .ldImm _ _
  | .addImm _ _ | .ldReg _ _ | .orReg _ _ | .andReg _ _ | .xorReg _ _ | .addReg _ _ | .subReg _ _ | .shrReg _ _
  | .subnReg _ _ | .shlReg _ _ | .ldI _ | .jpV0 _ | .rnd _ _ | .drw _ _ _ | .skp _ | .sknp _ | .ldVxDt _
  | .ldVxK _ | .ldDtVx _ | .ldStVx _ | .addI _ | .ldF _ | .loadRegs _ => 0

/-- What DXYN draws, said pixel by pixel and without any loop (44_display.md R145 to R151): the physical pixel
`(px, py)` of the grid belongs to the logical pixel `(px / k, py / k)`, with `k` 2 under doubling and 1 otherwise, and
is drawn iff the sprite, laid at the wrapped start and clipped at the edges, has a 1 bit there. -/
def covers (x y : Reg) (n : BitVec 4) (s : State) (px py : Nat) : Bool :=
  let k := if s.double then 2 else 1
  let sh := spriteShape s.target n
  let x0 := (s.getV x).toNat % s.logicalWidth
  let y0 := (s.getV y).toNat % s.logicalHeight
  decide (px < s.q.physWidth ∧ py < s.q.physHeight ∧ x0 ≤ px / k ∧ px / k < x0 + sh.wpx ∧ y0 ≤ py / k ∧
    py / k < y0 + sh.rows) &&
  spriteBit (readBytes s.mem s.i sh.len) sh.wpx (py / k - y0) (px / k - x0)

/-- The cycle slots of successive frames and the credit after them, from a starting credit and the frames' wall-clock
deltas (60_exceptions.md R198). -/
def slotCounts : Rat → List Rat → List Nat × Rat
  | credit, [] => ([], credit)
  | credit, d :: ds =>
    let c := cycleCredit credit d
    let r := slotCounts (c - (c.floor : Rat)) ds
    (c.floor.toNat :: r.1, r.2)

end Sys2Proof.Machine
end

