-- ==== Sys2Proof/Certificates/Slice0/Obligations.lean ====
section
/-! DEFINITION. The statements for the provers, each about the machine. A statement's `next { s with … }` says the
whole next state: every field not named is unchanged. -/

open Sys2Proof Sys2Proof.Machine

/-! ## Construction and reset -/

/-- CPU reset (70_reset_and_hazards.md R208; values 10_state.md R46; left alone R49). -/
def Obligations.CpuResetWritesExactly : Prop :=
  ∀ s : State,
    (∀ r, s.cpuReset.getV r = 0) ∧ (∀ k, (h : k < 16) → s.cpuReset.stack[k] = 0) ∧
    s.cpuReset =
      { s with
        v := s.cpuReset.v, stack := s.cpuReset.stack, i := 0, sp := 0, dt := 0, st := 0, pc := 0x200, vbl := false,
        kw := .idle, kwk := 0, fault := none }

/-- Construction (10_state.md R47): the font, zeros, a blank grid, the display mode; on every target. -/
def Obligations.ConstructionMakesMemoryAndScreen : Prop :=
  ∀ t : Target,
    (∀ a, a < 80 → (State.construct t).mem.get a = Params.font.getD a 0) ∧
    (∀ a, 80 ≤ a → (State.construct t).mem.get a = 0) ∧
    (∀ px py, (State.construct t).fb.pixel px py = false) ∧
    ((State.construct t).double = true ↔ t = .superchip10)

/-- The state right after construction satisfies the invariant, on every target. -/
def Obligations.ConstructionMeetsInv : Prop := ∀ t : Target, (State.construct t).Inv

/-- The invariant of Safety.lean is kept by every step from every state that has it (10_state.md R44). -/
def Obligations.EveryStepKeepsInv : Prop := ∀ s t : State, s.Inv → step s = .next t → t.Inv

/-- A ROM of 1 to 3584 bytes loads (70_reset_and_hazards.md R212): byte k at 0x200 + k, nothing else written. -/
def Obligations.RomLoadPlacesBytes : Prop :=
  ∀ (s : State) (r : List Byte), s.mem.wf = true → 1 ≤ r.length → r.length ≤ 3584 →
    ∃ m, loadRom (some r) s = .next { s with mem := m, phase := .start } ∧
      (∀ k, k < r.length → m.get (0x200 + k) = r.getD k 0) ∧
      (∀ a, ¬(0x200 ≤ a ∧ a < 0x200 + r.length) → m.get a = s.mem.get a)

/-- Load failure (70_reset_and_hazards.md R214): missing, empty or over 3584 bytes; its code and kind are those of
60_exceptions.md R168. -/
def Obligations.BadRomStopsBeforeAnyCycle : Prop :=
  ∀ s : State,
    loadRom none s = .fault (.romLoad .missing) ∧
    loadRom (some []) s = .fault (.romLoad .empty) ∧
    (∀ r : List Byte, 3584 < r.length → loadRom (some r) s = .fault (.romLoad .tooLarge)) ∧
    ∀ why, (Fault.romLoad why).error = some (4, .loadFailure)

/-! ## Encoding -/

/-- Words written out from the encodings of 30_encoding.md R84 and 95_test_vectors.md 2.1: at least one instruction of
every high nibble, and at least one word of each class of Invalid words of R85. -/
def Obligations.SampleWordsDecode : Prop :=
  (decode .chip8 0x00E0 = .ok .cls ∧ decode .superchip10 0x00FE = .ok .low ∧
    decode .chip8 0x1ABC = .ok (.jp 0xABC) ∧ decode .chip8 0x2400 = .ok (.call 0x400) ∧
    decode .chip8 0x352A = .ok (.seImm 5 0x2A) ∧ decode .chip48 0x4342 = .ok (.sneImm 3 0x42) ∧
    decode .chip8 0x5120 = .ok (.seReg 1 2) ∧ decode .chip8 0x6A3C = .ok (.ldImm 0xA 0x3C) ∧
    decode .chip48 0x7301 = .ok (.addImm 3 0x01) ∧ decode .chip8 0x8344 = .ok (.addReg 3 4) ∧
    decode .chip8 0x9AB0 = .ok (.sneReg 0xA 0xB) ∧ decode .chip8 0xA2F0 = .ok (.ldI 0x2F0) ∧
    decode .chip8 0xB210 = .ok (.jpV0 0x210) ∧ decode .superchip10 0xC40F = .ok (.rnd 4 0x0F) ∧
    decode .chip8 0xD125 = .ok (.drw 1 2 5) ∧ decode .chip8 0xE29E = .ok (.skp 2) ∧
    decode .chip8 0xF755 = .ok (.saveRegs 7)) ∧
  decode .chip8 0x0123 = .error .zeroFamily ∧ decode .chip8 0x00FE = .error .notOnTarget ∧
  decode .chip8 0x5121 = .error .fiveFamily ∧ decode .chip8 0x800F = .error .eightFamily ∧
  decode .chip8 0x9AB8 = .error .nineFamily ∧ decode .chip8 0xE0FF = .error .eFamily ∧
  decode .superchip10 0xF030 = .error .fFamily

/-- Decode and encode agree on every instruction of every target (30_encoding.md R91). -/
def Obligations.DecodeOfEncodeIsTheInstruction : Prop :=
  ∀ (t : Target) (i : Instr), i.wellFormed t = true → decode t (encode i) = .ok i

/-- And the other way: a word decodes to an instruction of the target only if it is that instruction's word. -/
def Obligations.DecodedWordIsItsEncoding : Prop :=
  ∀ (t : Target) (w : Word) (i : Instr), decode t w = .ok i → i.wellFormed t = true ∧ encode i = w

/-- 30_encoding.md R84: no two rows of the opcode map match one word. -/
def Obligations.NoTwoRowsMatchOneWord : Prop :=
  ∀ (t : Target) (w : Word) (r r' : OpRow), r ∈ opTable → r' ∈ opTable →
    r.hits t w = true → r'.hits t w = true → r = r'

/-- 30_encoding.md R85: a word is Invalid exactly when no row of R84 matches it; otherwise the decoder gives the
instruction whose row matches. -/
def Obligations.InvalidIsWhatNoRowMatches : Prop :=
  ∀ (t : Target) (w : Word),
    ((∃ e, decode t w = .error e) ↔ ∀ r ∈ opTable, r.hits t w = false) ∧
    (∀ i, decode t w = .ok i → i.row ∈ opTable ∧ i.row.hits t w = true)

/-! ## The cycle -/

/-- 40_execution_cycle.md R94. -/
def Obligations.SuppressedCycleDoesNothing : Prop :=
  ∀ s : State, (s.fault ≠ none ∨ s.vbl = true) → clockSys s = .next s

/-- 40_execution_cycle.md R95: big-endian fetch, and the two ways it faults. -/
def Obligations.FetchIsBigEndianOrFaults : Prop :=
  ∀ s : State, s.fault = none → s.vbl = false →
    (s.pc.toNat < 0xFFF →
      clockSys s = execWord (s.mem.get s.pc.toNat ++ s.mem.get (s.pc.toNat + 1)) s) ∧
    (s.pc = 0xFFF → clockSys s = .next { s with fault := some ⟨.memBounds, s.pc, 0x1000⟩ }) ∧
    (0x1000 ≤ s.pc.toNat → clockSys s = .next { s with fault := some ⟨.memBounds, s.pc, s.pc⟩ })

/-- 40_execution_cycle.md R100, 60_exceptions.md R175: report, no-op, PC + 2; the report's code and kind are those of R168.
The list of host events is the model's (log entry 11). -/
def Obligations.InvalidWordIsReportedNoOp : Prop :=
  ∀ (s : State) (w : Word) (e : Invalid), decode s.target w = .error e →
    execWord w s = .next { s with pc := s.pc + 2, out := .invalidOpcode s.pc w :: s.out } ∧
    (HostEvent.invalidOpcode s.pc w).error = some (8, .report)

/-- A step runs the decoded instruction: in a slot of a frame, with neither latch set, when the two bytes at PC, the
first in the high half, decode to an instruction of the target, the step is `exec` of it followed by the sound clock
(60_exceptions.md R199), or, when it latched a fault, by the end of the loop with the diagnostic (R203, R174). When they
decode to no instruction, the step is the report and the no-op (R175) followed by the sound clock; when they cannot be
fetched (40_execution_cycle.md R95), it is the latched fault followed by the end of the loop. -/
def Obligations.StepRunsTheDecodedInstruction : Prop :=
  ∀ (s : State) (n : Nat) (u : Rat) (w : Word),
    s.phase = .frame (n + 1) u → s.fault = none → s.vbl = false →
    w = s.mem.get s.pc.toNat ++ s.mem.get (s.pc.toNat + 1) →
    (∀ i, s.pc.toNat < 0xFFF → decode s.target w = .ok i →
      (∀ t, exec i s = .next t → t.fault = none →
        step s = .next { t with toneReq := t.toneReq || decide (0 < t.st.toNat), phase := .frame n u }) ∧
      (∀ t f, exec i s = .next t → t.fault = some f →
        step s = .next { t with phase := .stopped .fault, out := .faultDiagnostic f :: t.out }) ∧
      (∀ r, exec i s = .fault r → step s = .fault r)) ∧
    (∀ e, s.pc.toNat < 0xFFF → decode s.target w = .error e →
      step s =
        .next { s with
          pc := s.pc + 2, out := .invalidOpcode s.pc w :: s.out,
          toneReq := s.toneReq || decide (0 < s.st.toNat), phase := .frame n u }) ∧
    (∀ f, 0xFFF ≤ s.pc.toNat → f = ⟨.memBounds, s.pc, if s.pc = 0xFFF then 0x1000 else s.pc⟩ →
      step s = .next { s with fault := some f, phase := .stopped .fault, out := .faultDiagnostic f :: s.out })

/-- 40_execution_cycle.md R101: a cycle that latches a fault changes nothing else, and the latched PC is its own. -/
def Obligations.FaultsArePrecise : Prop :=
  ∀ (s t : State) (f : FaultRecord), s.fault = none → clockSys s = .next t → t.fault = some f →
    f.pc = s.pc ∧ t = { s with fault := some f }

/-! ## Control flow -/

/-- 41_control_flow.md R105, 60_exceptions.md R171: underflow, and the return to 2 after the CALL, for every SP of
10_state.md R28. -/
def Obligations.RetPopsOrUnderflows : Prop :=
  ∀ s : State,
    (s.sp = 0 → exec .ret s = .next { s with fault := some ⟨.stackUnderflow, s.pc, 0⟩ }) ∧
    (∀ k, (h : k < 15) → s.sp.toNat = k + 1 →
      exec .ret s = .next { s with sp := s.sp - 1, pc := s.stack[k] + 2 })

/-- 41_control_flow.md R107, 60_exceptions.md R169: overflow, and the push of the CALL's own address. -/
def Obligations.CallPushesOrOverflows : Prop :=
  ∀ (s : State) (nnn : BitVec 12),
    (s.sp = 15 → exec (.call nnn) s = .next { s with fault := some ⟨.stackOverflow, s.pc, 0⟩ }) ∧
    ((h : s.sp.toNat < 15) →
      exec (.call nnn) s =
        .next { s with stack := s.stack.set s.sp.toNat s.pc, sp := s.sp + 1, pc := nnn.setWidth 16 })

/-- The model's own choice for states no run reaches (log entry 2): with SP over 15 CALL overflows; RET pops entry 15
at 16, and stops above it, where there is no entry. -/
def Obligations.StackPointerOutOfRangeIsSafe : Prop :=
  ∀ (s : State) (nnn : BitVec 12),
    (15 < s.sp.toNat → exec (.call nnn) s = .next { s with fault := some ⟨.stackOverflow, s.pc, 0⟩ }) ∧
    (s.sp = 16 → exec .ret s = .next { s with sp := 15, pc := s.stack[15] + 2 }) ∧
    (16 < s.sp.toNat → exec .ret s = .fault .stackEntryAbsent)

/-- 41_control_flow.md R107, corner cases: from an empty stack, up to 15 nested calls succeed, each pushing its own
address; entry 15 is not written; the 16th call faults and leaves the stack as it is. -/
def Obligations.FifteenNestedCallsThenOverflow : Prop :=
  ∀ (s : State) (ts : List (BitVec 12)), s.sp = 0 → s.fault = none → ts.length ≤ 15 →
    ∃ t, execList (ts.map Instr.call) s = .next t ∧ t.fault = none ∧ t.sp.toNat = ts.length ∧
      (∀ k, (h : k < ts.length) → (h16 : k < 16) →
        t.stack[k] = if k = 0 then s.pc else (ts.getD (k - 1) 0).setWidth 16) ∧
      t.stack[15] = s.stack[15] ∧
      (ts.length = 15 → ∀ nnn,
        execList ((ts ++ [nnn]).map Instr.call) s = .next { t with fault := some ⟨.stackOverflow, t.pc, 0⟩ })

/-- CALL then RET comes back to the instruction after the CALL with the stack depth as before (41_control_flow.md R105,
R107; 95_test_vectors.md S5), whatever the code between did to anything but the stack. -/
def Obligations.RetReturnsAfterItsCall : Prop :=
  ∀ (s : State) (nnn : BitVec 12), s.sp.toNat < 15 →
    ∃ t, exec (.call nnn) s = .next t ∧
      ∀ t' : State, t'.sp = t.sp → t'.stack = t.stack →
        exec .ret t' = .next { t' with sp := s.sp, pc := s.pc + 2 }

/-- 41_control_flow.md R106 and R108. -/
def Obligations.JumpsSetThePc : Prop :=
  ∀ (s : State) (nnn : BitVec 12),
    exec (.jp nnn) s = .next { s with pc := nnn.setWidth 16 } ∧
    (s.target = .chip8 →
      exec (.jpV0 nnn) s = .next { s with pc := (s.getV 0).setWidth 16 + nnn.setWidth 16 }) ∧
    (s.target ≠ .chip8 → ∀ (x : Reg) (nn : Byte), nnn = nibble x ++ nn →
      exec (.jpV0 nnn) s = .next { s with pc := (s.getV x).setWidth 16 + nn.setWidth 16 })

/-- 41_control_flow.md R109 to R112. -/
def Obligations.SkipsAddFourOrTwo : Prop :=
  ∀ (s : State) (x y : Reg) (nn : Byte),
    exec (.seImm x nn) s = .next { s with pc := s.pc + if s.getV x = nn then 4 else 2 } ∧
    exec (.sneImm x nn) s = .next { s with pc := s.pc + if s.getV x ≠ nn then 4 else 2 } ∧
    exec (.seReg x y) s = .next { s with pc := s.pc + if s.getV x = s.getV y then 4 else 2 } ∧
    exec (.sneReg x y) s = .next { s with pc := s.pc + if s.getV x ≠ s.getV y then 4 else 2 }

/-! ## Arithmetic and logic -/

/-- 42_alu.md R115, R116, R117. -/
def Obligations.LoadsAndAddImmediate : Prop :=
  ∀ (s : State) (x y : Reg) (nn : Byte),
    exec (.ldImm x nn) s = .next { s with v := s.v.set x.val nn, pc := s.pc + 2 } ∧
    exec (.addImm x nn) s =
      .next { s with v := s.v.set x.val (BitVec.ofNat 8 ((s.getV x).toNat + nn.toNat)), pc := s.pc + 2 } ∧
    exec (.ldReg x y) s = .next { s with v := s.v.set x.val (s.getV y), pc := s.pc + 2 }

/-- 42_alu.md R118, R119, R120: the result, then VF 0, on every target. -/
def Obligations.LogicOpsResetVf : Prop :=
  ∀ (s : State) (x y : Reg),
    exec (.orReg x y) s =
      .next { s with v := (s.v.set x.val (s.getV x ||| s.getV y)).set 15 0, pc := s.pc + 2 } ∧
    exec (.andReg x y) s =
      .next { s with v := (s.v.set x.val (s.getV x &&& s.getV y)).set 15 0, pc := s.pc + 2 } ∧
    exec (.xorReg x y) s =
      .next { s with v := (s.v.set x.val (s.getV x ^^^ s.getV y)).set 15 0, pc := s.pc + 2 }

/-- 42_alu.md R121, R122, R124: the result modulo 256, then the carry or the not-borrow. -/
def Obligations.AddAndSubtractWithFlag : Prop :=
  ∀ (s : State) (x y : Reg),
    exec (.addReg x y) s =
      .next { s with
        v := (s.v.set x.val (BitVec.ofNat 8 ((s.getV x).toNat + (s.getV y).toNat))).set 15
          (if (s.getV x).toNat + (s.getV y).toNat > 255 then 1 else 0),
        pc := s.pc + 2 } ∧
    exec (.subReg x y) s =
      .next { s with
        v := (s.v.set x.val (BitVec.ofNat 8 (256 + (s.getV x).toNat - (s.getV y).toNat))).set 15
          (if (s.getV x).toNat ≥ (s.getV y).toNat then 1 else 0),
        pc := s.pc + 2 } ∧
    exec (.subnReg x y) s =
      .next { s with
        v := (s.v.set x.val (BitVec.ofNat 8 (256 + (s.getV y).toNat - (s.getV x).toNat))).set 15
          (if (s.getV y).toNat ≥ (s.getV x).toNat then 1 else 0),
        pc := s.pc + 2 }

/-- 42_alu.md R123, R125: the operand by target, the shifted value, then the bit shifted out. -/
def Obligations.ShiftsByTarget : Prop :=
  ∀ (s : State) (x y : Reg) (w : Byte), w = (if s.target = .chip8 then s.getV y else s.getV x) →
    exec (.shrReg x y) s =
      .next { s with
        v := (s.v.set x.val (BitVec.ofNat 8 (w.toNat / 2))).set 15 (BitVec.ofNat 8 (w.toNat % 2)), pc := s.pc + 2 } ∧
    exec (.shlReg x y) s =
      .next { s with
        v := (s.v.set x.val (BitVec.ofNat 8 (w.toNat * 2))).set 15 (BitVec.ofNat 8 (w.toNat / 128)),
        pc := s.pc + 2 }

/-- 42_alu.md R126 with the model's draw (log entry 3): the drawn byte is a free value, so what is said of it holds for
every byte; `rndWith` is the same with any byte in its place. -/
def Obligations.RandomMasksADrawnByte : Prop :=
  ∀ (s : State) (x : Reg) (nn : Byte),
    exec (.rnd x nn) s =
      .next { s with
        v := s.v.set x.val (Config.randomByte s.draws &&& nn), pc := s.pc + 2, draws := s.draws + 1 } ∧
    ∀ r : Byte, rndWith r x nn s = .next { s with v := s.v.set x.val (r &&& nn), pc := s.pc + 2 }

/-- 42_alu.md R130, the column "value when X = 0xF", with 00_scope.md R14: with VF as the destination the flag remains,
not the result. -/
def Obligations.FlagRemainsWhenVfIsTheDestination : Prop :=
  ∀ (s : State) (y : Reg) (i : Instr) (f : Byte),
    ((i = .orReg 15 y ∨ i = .andReg 15 y ∨ i = .xorReg 15 y) ∧ f = 0 ∨
      i = .addReg 15 y ∧ f = (if (s.getV 15).toNat + (s.getV y).toNat > 255 then 1 else 0) ∨
      i = .subReg 15 y ∧ f = (if (s.getV 15).toNat ≥ (s.getV y).toNat then 1 else 0) ∨
      i = .subnReg 15 y ∧ f = (if (s.getV y).toNat ≥ (s.getV 15).toNat then 1 else 0) ∨
      i = .shrReg 15 y ∧ f = (if s.target = .chip8 then s.getV y else s.getV 15) % 2 ∨
      i = .shlReg 15 y ∧ f = (if s.target = .chip8 then s.getV y else s.getV 15) / 128) →
    exec i s = .next { s with v := s.v.set 15 f, pc := s.pc + 2 }

/-! ## Index register and memory -/

/-- 43_index_memory.md R132, R133, R134. -/
def Obligations.IndexRegisterUpdates : Prop :=
  ∀ (s : State) (x : Reg) (nnn : BitVec 12),
    exec (.ldI nnn) s = .next { s with i := BitVec.ofNat 16 nnn.toNat, pc := s.pc + 2 } ∧
    exec (.addI x) s = .next { s with i := BitVec.ofNat 16 (s.i.toNat + (s.getV x).toNat), pc := s.pc + 2 } ∧
    exec (.ldF x) s = .next { s with i := BitVec.ofNat 16 (5 * (s.getV x).toNat), pc := s.pc + 2 }

/-- 43_index_memory.md R135, where the three bytes are in memory. -/
def Obligations.BcdStoresThreeDigits : Prop :=
  ∀ (s : State) (x : Reg), s.mem.wf = true → s.i.toNat + 2 < 0x1000 →
    ∃ m, exec (.ldB x) s = .next { s with mem := m, pc := s.pc + 2 } ∧
      (m.get s.i.toNat).toNat = (s.getV x).toNat / 100 ∧
      (m.get (s.i.toNat + 1)).toNat = (s.getV x).toNat / 10 % 10 ∧
      (m.get (s.i.toNat + 2)).toNat = (s.getV x).toNat % 10 ∧
      ∀ a, ¬(s.i.toNat ≤ a ∧ a < s.i.toNat + 3) → m.get a = s.mem.get a

/-- 43_index_memory.md R136, where the range is in memory: the bytes and the final `I` by target. -/
def Obligations.SaveStoresTheRegisterRange : Prop :=
  ∀ (s : State) (x : Reg), s.mem.wf = true → s.i.toNat + x.val < 0x1000 →
    ∃ m,
      exec (.saveRegs x) s =
        .next { s with
          mem := m, pc := s.pc + 2,
          i := BitVec.ofNat 16 (s.i.toNat + x.val + if s.target = .chip8 then 1 else 0) } ∧
      (∀ k : Reg, k ≤ x → m.get (s.i.toNat + k.val) = s.getV k) ∧
      ∀ a, ¬(s.i.toNat ≤ a ∧ a < s.i.toNat + x.val + 1) → m.get a = s.mem.get a

/-- 43_index_memory.md R137, where the range is in memory. -/
def Obligations.LoadFillsTheRegisterRange : Prop :=
  ∀ (s : State) (x : Reg), s.i.toNat + x.val < 0x1000 →
    ∃ w : Vector Byte 16,
      exec (.loadRegs x) s =
        .next { s with
          v := w, pc := s.pc + 2,
          i := BitVec.ofNat 16 (s.i.toNat + x.val + if s.target = .chip8 then 1 else 0) } ∧
      ∀ k : Reg, w[k.val] = if k ≤ x then s.mem.get (s.i.toNat + k.val) else s.getV k

/-- FX55 then FX65 from the same `I` restores `V0..VX`, whatever the registers hold in between (43_index_memory.md R137,
corner cases; 95_test_vectors.md S8). -/
def Obligations.SaveThenLoadRestoresRegisters : Prop :=
  ∀ (s : State) (x : Reg) (w : Vector Byte 16), s.mem.wf = true → s.i.toNat + x.val < 0x1000 →
    ∃ t u, exec (.saveRegs x) s = .next t ∧ exec (.loadRegs x) { t with v := w, i := s.i } = .next u ∧
      u.i = t.i ∧ u.mem = t.mem ∧ ∀ k : Reg, u.getV k = if k ≤ x then s.getV k else w[k.val]

/-- 60_exceptions.md R172, 20_memory.md R65: the four instructions that reach memory, when their range leaves it, latch the
lowest address outside and change nothing else. -/
def Obligations.OutOfRangeAccessFaults : Prop :=
  ∀ (s : State) (i : Instr) (len : Nat),
    ((∃ x, i = .ldB x) ∧ len = 3 ∨ (∃ x : Reg, i = .saveRegs x ∧ len = x.val + 1) ∨
      (∃ x : Reg, i = .loadRegs x ∧ len = x.val + 1) ∨
      (∃ x y n, i = .drw x y n ∧ n ≠ 0 ∧ len = n.toNat) ∨
      ((∃ x y, i = .drw x y 0) ∧ s.target = .superchip10 ∧ len = 32)) →
    0x1000 < s.i.toNat + len →
    exec i s =
      .next { s with fault := some ⟨.memBounds, s.pc, if s.i.toNat < 0x1000 then 0x1000 else s.i⟩ }

/-! ## Display -/

/-- 44_display.md R142, R143, R144. -/
def Obligations.ScreenClearAndModes : Prop :=
  ∀ s : State,
    (∃ fb, exec .cls s = .next { s with fb := fb, pc := s.pc + 2 } ∧ ∀ px py, fb.pixel px py = false) ∧
    exec .low s = .next { s with double := true, pc := s.pc + 2 } ∧
    exec .high s = .next { s with double := false, pc := s.pc + 2 }

/-- 44_display.md R145, R152, R153, R154 with the parameter P_WRAP_PIXELS at 0 (log entry 7): the sprite loops of the
model draw exactly the pixels that `covers` names, one flip each; VF says whether one of them was lit. -/
def Obligations.DrawFlipsExactlyTheCoveredPixels : Prop :=
  ∀ (s : State) (x y : Reg) (n : BitVec 4),
    s.i.toNat + (spriteShape s.target n).len ≤ 0x1000 →
    ∃ (fb : FrameBuffer) (hit : Bool),
      exec (.drw x y n) s =
        .next { s with fb := fb, v := s.v.set 15 (if hit then 1 else 0), vbl := true, pc := s.pc + 2 } ∧
      (∀ px py, fb.pixel px py = (s.fb.pixel px py ^^ covers x y n s px py)) ∧
      (hit = true ↔ ∃ px py, covers x y n s px py = true ∧ s.fb.pixel px py = true)

/-- 44_display.md R145, corner cases; R146: N = 0 off SUPERCHIP10 reads no memory (any `I`), draws nothing, clears VF,
and still sets VBL. -/
def Obligations.DrawOfZeroRowsOnlySetsLatches : Prop :=
  ∀ (s : State) (x y : Reg), s.target ≠ .superchip10 →
    exec (.drw x y 0) s = .next { s with v := s.v.set 15 0, vbl := true, pc := s.pc + 2 }

/-- 44_display.md R156, its first clause: the same draw twice leaves the pixels as before. The second draw's flag is stated
where the drawn places were clear before the first (log entry 17). -/
def Obligations.DrawingTwiceRestoresThePixels : Prop :=
  ∀ (s : State) (x y : Reg) (n : BitVec 4) (w : Vector Byte 16) (p : Word) (b : Bool),
    s.i.toNat + (spriteShape s.target n).len ≤ 0x1000 →
    w[x.val] = s.getV x → w[y.val] = s.getV y →
    ∃ t u, exec (.drw x y n) s = .next t ∧
      exec (.drw x y n) { t with v := w, pc := p, vbl := b } = .next u ∧ u.fb = s.fb ∧
      ((∀ px py, covers x y n s px py = true → s.fb.pixel px py = false) →
        (u.getV 15 = 1 ↔ ∃ px py, covers x y n s px py = true))

/-! ## Keys and timers -/

/-- 45_timers_keys.md R157, R158, for a key code of the snapshot. -/
def Obligations.SkipOnSnapshotKey : Prop :=
  ∀ (s : State) (x : Reg) (k : Key), (s.getV x).toNat = k.val →
    exec (.skp x) s = .next { s with pc := s.pc + if s.keys[k.val] then 4 else 2 } ∧
    exec (.sknp x) s = .next { s with pc := s.pc + if s.keys[k.val] then 2 else 4 }

/-- 45_timers_keys.md R163 with the model's draw (log entry 3): above 15 the answer is a draw, and whichever answer
is put in its place, the instruction skips or not as R157 and R158 say. -/
def Obligations.SkipOnKeyCodeAboveFifteenIsADraw : Prop :=
  ∀ (s : State) (x : Reg), 15 < (s.getV x).toNat →
    exec (.skp x) s =
      .next { s with
        pc := s.pc + if Config.keyDraw s.draws (s.getV x) then 4 else 2, draws := s.draws + 1 } ∧
    exec (.sknp x) s =
      .next { s with
        pc := s.pc + if Config.keyDraw s.draws (s.getV x) then 2 else 4, draws := s.draws + 1 } ∧
    ∀ d : Bool, skipOnKey d true s = .next { s with pc := s.pc + if d then 4 else 2 } ∧
      skipOnKey d false s = .next { s with pc := s.pc + if d then 2 else 4 }

/-- 45_timers_keys.md R159, R160, R161. -/
def Obligations.TimerRegisterMoves : Prop :=
  ∀ (s : State) (x : Reg),
    exec (.ldVxDt x) s = .next { s with v := s.v.set x.val s.dt, pc := s.pc + 2 } ∧
    exec (.ldDtVx x) s = .next { s with dt := s.getV x, pc := s.pc + 2 } ∧
    exec (.ldStVx x) s = .next { s with st := s.getV x, pc := s.pc + 2 }

/-- 45_timers_keys.md R162, all four cases; `Config.keyClickSt` is P_KEYCLICK_ST, which nothing constrains. -/
def Obligations.KeyWaitRecordsHoldsAndResumes : Prop :=
  ∀ (s : State) (x : Reg),
    (s.kw = .idle → s.lastKey = none → exec (.ldVxK x) s = .next s) ∧
    (∀ k : Key, s.kw = .idle → s.lastKey = some k →
      exec (.ldVxK x) s =
        .next { s with
          v := s.v.set x.val (BitVec.ofNat 8 k.val), st := Config.keyClickSt, kwk := k, kw := .held }) ∧
    (s.kw = .held → s.keys[s.kwk.val] = true → exec (.ldVxK x) s = .next s) ∧
    (s.kw = .held → s.keys[s.kwk.val] = false →
      exec (.ldVxK x) s = .next { s with kw := .idle, pc := s.pc + 2 })

/-- 60_exceptions.md R184: `n` ticks take `n` off the delay timer, with floor at 0; the sound timer counts the same
(R185). -/
def Obligations.TimersCountDownToZero : Prop :=
  ∀ (n : Nat) (s : State),
    ((clock60hz^[n]) s).dt.toNat = s.dt.toNat - n ∧ ((clock60hz^[n]) s).st.toNat = s.st.toNat - n

/-- 60_exceptions.md R186, R187, R189: the 60 Hz clock, the sound clock, and the bus clock for every answer of the
poll. The events the host gets are in the model's field `out`, newest first (log entry 11). -/
def Obligations.ClockEffects : Prop :=
  ∀ (s : State) (p : Poll),
    clock60hz s =
      { s with dt := BitVec.ofNat 8 (s.dt.toNat - 1), st := BitVec.ofNat 8 (s.st.toNat - 1), vbl := false } ∧
    clockSound s = { s with toneReq := s.toneReq || decide (0 < s.st.toNat) } ∧
    clockBus p s =
      { s with
        keys := p.keys, lastKey := p.lastKey, exit := p.exit, toneReq := false,
        out := .audio (!s.toneReq) :: .screen s.fb s.target.quirks.physWidth s.target.quirks.physHeight :: s.out }

/-! ## What each instruction leaves alone -/

/-- 10_state.md R24, R25: an instruction writes no general register but its destination, and VF where the spec names
it. -/
def Obligations.OnlyNamedRegistersAreWritten : Prop :=
  ∀ (i : Instr) (s t : State) (r : Reg), exec i s = .next t → writesReg i r = false → t.getV r = s.getV r

/-- 20_memory.md R57: every byte outside the stored range reads as before; the stored bytes start at the `I` the
instruction begins with, 3 for FX33, X + 1 for FX55, none for the others. -/
def Obligations.MemoryOutsideTheStoredRangeIsUnchanged : Prop :=
  ∀ (i : Instr) (s t : State) (a : Nat), exec i s = .next t →
    ¬(s.i.toNat ≤ a ∧ a < s.i.toNat + storedLen i) → t.mem.get a = s.mem.get a

/-- 10_state.md R26, R28 to R31, R34 to R38: every other piece of state is written only by the instructions its rule
names, FAULT by those of 40_execution_cycle.md R101, and the bus, scheduler and configuration state by none (R52,
00_scope.md R2). The draw count, the phase and the event list are the model's own (log entries 3, 9, 11). -/
def Obligations.EachFieldHasItsWritersOnly : Prop :=
  ∀ (i : Instr) (s t : State), exec i s = .next t →
    ((∀ nnn, i ≠ .call nnn) → t.stack = s.stack) ∧
    ((∀ nnn, i ≠ .call nnn) → i ≠ .ret → t.sp = s.sp) ∧
    ((∀ nnn, i ≠ .ldI nnn) → (∀ x, i ≠ .addI x) → (∀ x, i ≠ .ldF x) → (∀ x, i ≠ .saveRegs x) →
      (∀ x, i ≠ .loadRegs x) → t.i = s.i) ∧
    ((∀ x, i ≠ .ldDtVx x) → t.dt = s.dt) ∧
    ((∀ x, i ≠ .ldStVx x) → (∀ x, i ≠ .ldVxK x) → t.st = s.st) ∧
    (i ≠ .cls → (∀ x y n, i ≠ .drw x y n) → t.fb = s.fb) ∧
    (i ≠ .low → i ≠ .high → t.double = s.double) ∧
    ((∀ x y n, i ≠ .drw x y n) → t.vbl = s.vbl) ∧
    ((∀ x, i ≠ .ldVxK x) → t.kw = s.kw ∧ t.kwk = s.kwk) ∧
    ((∀ nnn, i ≠ .call nnn) → i ≠ .ret → (∀ x y n, i ≠ .drw x y n) → (∀ x, i ≠ .ldB x) → (∀ x, i ≠ .saveRegs x) →
      (∀ x, i ≠ .loadRegs x) → t.fault = s.fault) ∧
    ((∀ x nn, i ≠ .rnd x nn) → (∀ x, i ≠ .skp x) → (∀ x, i ≠ .sknp x) → t.draws = s.draws) ∧
    t.target = s.target ∧ t.keys = s.keys ∧ t.lastKey = s.lastKey ∧ t.exit = s.exit ∧ t.toneReq = s.toneReq ∧
    t.tLast = s.tLast ∧ t.credit = s.credit ∧ t.phase = s.phase ∧ t.out = s.out

/-- 40_execution_cycle.md R98: but for the jumps, CALL and RET, an instruction that latches no fault moves the PC by 2,
by 4 (a skip only), or not at all (FX0A only). -/
def Obligations.PcMovesByTwoUnlessControlFlow : Prop :=
  ∀ (i : Instr) (s t : State), s.fault = none → exec i s = .next t → t.fault = none →
    i ≠ .ret → (∀ nnn, i ≠ .jp nnn) → (∀ nnn, i ≠ .call nnn) → (∀ nnn, i ≠ .jpV0 nnn) →
    t.pc = s.pc + 2 ∨
    (t.pc = s.pc + 4 ∧ ((∃ x nn, i = .seImm x nn ∨ i = .sneImm x nn) ∨ (∃ x y, i = .seReg x y ∨ i = .sneReg x y) ∨
      ∃ x, i = .skp x ∨ i = .sknp x)) ∨
    (t.pc = s.pc ∧ ∃ x, i = .ldVxK x)

/-! ## The scheduler -/

/-- 60_exceptions.md R197, R198: an iteration of the loop that no reset comes into, at wall-clock time `u`, fires a frame
iff at least 1/60 s has passed, with `n` the whole part of the credit and the rest carried, from a credit that is not
negative, as in every state with the invariant. The step takes the host's
answers as they come, and the statement holds for each of them; the count of draws is the model's own (log entries
13, 14). -/
def Obligations.FrameFiresAfterOnePeriod : Prop :=
  ∀ (s : State) (u c : Rat), s.phase = .wait → 0 ≤ s.credit → c = s.credit + (u - s.tLast) * 500 →
    step s = .next (betweenFramesWith (Config.resetRequest s.draws) (Config.now s.draws) s) ∧
    (1 / 60 ≤ u - s.tLast →
      betweenFramesWith false u s =
        { s with credit := c - c.floor, phase := .frame c.floor.toNat u, draws := s.draws + 1 }) ∧
    (u - s.tLast < 1 / 60 → betweenFramesWith false u s = { s with draws := s.draws + 1 })

/-- 60_exceptions.md R199, R203: after the last slot come the bus clock, then the 60 Hz clock, then the exit check on
the snapshot just polled; `T_LAST` becomes the time the frame fired at. -/
def Obligations.FrameEndsWithBusThenTickThenExitCheck : Prop :=
  ∀ (s : State) (u : Rat), s.phase = .frame 0 u →
    ∃ t, step s = .next t ∧
      t = { clockBus (Config.poll s.draws) s with draws := s.draws + 1, phase := .tick u } ∧
      step t =
        .next { clock60hz t with
          tLast := u, phase := if (Config.poll s.draws).exit then .stopped .exit else .wait }

/-- 60_exceptions.md R204: an admissible frame has at least 8 slots, and the carried credit stays in [0, 1). -/
def Obligations.EveryFrameHasEightSlots : Prop :=
  ∀ credit delta : Rat, 0 ≤ credit → 1 / 60 ≤ delta →
    8 ≤ (cycleCredit credit delta).floor ∧
    0 ≤ cycleCredit credit delta - (cycleCredit credit delta).floor ∧
    cycleCredit credit delta - (cycleCredit credit delta).floor < 1

/-- 60_exceptions.md R198: over any sequence of frames the slots add up to the whole part of 500 times the elapsed
time: the rate does not drift. -/
def Obligations.SlotCountsDoNotDrift : Prop :=
  ∀ ds : List Rat, (∀ d ∈ ds, 1 / 60 ≤ d) →
    ((slotCounts 0 ds).1.sum : Int) = (500 * ds.sum).floor ∧
    (slotCounts 0 ds).2 = 500 * ds.sum - ((500 * ds.sum).floor : Rat)

/-- 60_exceptions.md R205: frames of exactly 1/60 s have 8, 8, 9 slots, again and again. -/
def Obligations.NominalScheduleIsEightEightNine : Prop :=
  ∀ k : Nat,
    (slotCounts 0 (List.replicate (3 * k) (1 / 60))).1 = (List.replicate k [8, 8, 9]).flatten ∧
    (slotCounts 0 (List.replicate (3 * k) (1 / 60))).2 = 0

/-- 70_reset_and_hazards.md R217: once VBL is set, the slots left in the frame pass and execute nothing: only the tone
request of the sound clock can change. -/
def Obligations.VblankWaitUsesUpTheFrame : Prop :=
  ∀ (n : Nat) (u : Rat) (s : State), s.phase = .frame n u → s.vbl = true → s.fault = none →
    Host.Core.run Sys2Proof.core n s =
      .next { s with phase := .frame 0 u, toneReq := s.toneReq || decide (0 < n ∧ 0 < s.st.toNat) }

/-- 45_timers_keys.md R164: the input snapshot changes only at the bus clock. -/
def Obligations.KeysChangeOnlyAtThePoll : Prop :=
  ∀ s t : State, step s = .next t → (∀ u, s.phase ≠ .frame 0 u) →
    t.keys = s.keys ∧ t.lastKey = s.lastKey ∧ t.exit = s.exit

/-- 00_scope.md R2: the target is read-only for the session. -/
def Obligations.TargetNeverChanges : Prop := ∀ s t : State, step s = .next t → t.target = s.target

/-- 60_exceptions.md R170, R180 with the model's stopped phase (log entry 9): a faulted machine stays exactly as it is
until the host requests a reset, which clears the fault and starts the loop anew. The statement holds for either
answer of the host. -/
def Obligations.FaultedMachineWaitsForReset : Prop :=
  ∀ s : State, s.Inv → s.fault ≠ none →
    step s = .next (afterStopWith (Config.resetRequest s.draws) s) ∧
    afterStopWith false s = { s with draws := s.draws + 1 } ∧
    afterStopWith true s = { s.cpuReset with phase := .start, draws := s.draws + 1 }

/-- 70_reset_and_hazards.md R209 with the model's draw (log entry 14): a reset requested between two frames resets the
CPU and leaves the scheduler, memory and screen as they are; the next step is again between two frames. -/
def Obligations.ResetBetweenFramesKeepsMemoryAndSchedule : Prop :=
  ∀ (s : State) (u : Rat), s.phase = .wait →
    step s = .next (betweenFramesWith (Config.resetRequest s.draws) (Config.now s.draws) s) ∧
    betweenFramesWith true u s = { s.cpuReset with draws := s.draws + 1 } ∧
    s.cpuReset.mem = s.mem ∧ s.cpuReset.fb = s.fb ∧ s.cpuReset.double = s.double ∧ s.cpuReset.tLast = s.tLast ∧
    s.cpuReset.credit = s.credit ∧ s.cpuReset.phase = .wait

/-- A program runs (70_reset_and_hazards.md R207, 60_exceptions.md R196): the first step loads the host's ROM; after
any ROM that loads, `run()` is entered with the wall-clock time and no credit. -/
def Obligations.LoadThenRunStartsTheLoop : Prop :=
  ∀ (s : State) (r : List Byte), s.phase = .load → 1 ≤ r.length → r.length ≤ 3584 →
    step s = loadRom Config.rom s ∧
    ∃ t, loadRom (some r) s = .next t ∧ t = { s with mem := t.mem, phase := .start } ∧
      step t = .next { t with
        tLast := Config.now s.draws, credit := 0, phase := .wait, draws := s.draws + 1 }
end

