-- ==== Sys2Proof/Laws/State.lean ====
section
/-! SUPPORT. One lemma per field per named update of the state, true by rfl: what the update sets and what it leaves
alone. -/

namespace Sys2Proof.Machine

@[simp] theorem State.setV_target (s : State) (x : Reg) (b : Byte) : (s.setV x b).target = s.target := rfl
@[simp] theorem State.setV_v (s : State) (x : Reg) (b : Byte) : (s.setV x b).v = s.v.set x.val b := rfl
@[simp] theorem State.setV_i (s : State) (x : Reg) (b : Byte) : (s.setV x b).i = s.i := rfl
@[simp] theorem State.setV_pc (s : State) (x : Reg) (b : Byte) : (s.setV x b).pc = s.pc := rfl
@[simp] theorem State.setV_sp (s : State) (x : Reg) (b : Byte) : (s.setV x b).sp = s.sp := rfl
@[simp] theorem State.setV_stack (s : State) (x : Reg) (b : Byte) : (s.setV x b).stack = s.stack := rfl
@[simp] theorem State.setV_dt (s : State) (x : Reg) (b : Byte) : (s.setV x b).dt = s.dt := rfl
@[simp] theorem State.setV_st (s : State) (x : Reg) (b : Byte) : (s.setV x b).st = s.st := rfl
@[simp] theorem State.setV_mem (s : State) (x : Reg) (b : Byte) : (s.setV x b).mem = s.mem := rfl
@[simp] theorem State.setV_fb (s : State) (x : Reg) (b : Byte) : (s.setV x b).fb = s.fb := rfl
@[simp] theorem State.setV_double (s : State) (x : Reg) (b : Byte) : (s.setV x b).double = s.double := rfl
@[simp] theorem State.setV_vbl (s : State) (x : Reg) (b : Byte) : (s.setV x b).vbl = s.vbl := rfl
@[simp] theorem State.setV_kw (s : State) (x : Reg) (b : Byte) : (s.setV x b).kw = s.kw := rfl
@[simp] theorem State.setV_kwk (s : State) (x : Reg) (b : Byte) : (s.setV x b).kwk = s.kwk := rfl
@[simp] theorem State.setV_fault (s : State) (x : Reg) (b : Byte) : (s.setV x b).fault = s.fault := rfl
@[simp] theorem State.setV_keys (s : State) (x : Reg) (b : Byte) : (s.setV x b).keys = s.keys := rfl
@[simp] theorem State.setV_lastKey (s : State) (x : Reg) (b : Byte) : (s.setV x b).lastKey = s.lastKey := rfl
@[simp] theorem State.setV_exit (s : State) (x : Reg) (b : Byte) : (s.setV x b).exit = s.exit := rfl
@[simp] theorem State.setV_toneReq (s : State) (x : Reg) (b : Byte) : (s.setV x b).toneReq = s.toneReq := rfl
@[simp] theorem State.setV_tLast (s : State) (x : Reg) (b : Byte) : (s.setV x b).tLast = s.tLast := rfl
@[simp] theorem State.setV_credit (s : State) (x : Reg) (b : Byte) : (s.setV x b).credit = s.credit := rfl
@[simp] theorem State.setV_phase (s : State) (x : Reg) (b : Byte) : (s.setV x b).phase = s.phase := rfl
@[simp] theorem State.setV_draws (s : State) (x : Reg) (b : Byte) : (s.setV x b).draws = s.draws := rfl
@[simp] theorem State.setV_out (s : State) (x : Reg) (b : Byte) : (s.setV x b).out = s.out := rfl

@[simp] theorem State.setVF_target (s : State) (b : Byte) : (s.setVF b).target = s.target := rfl
@[simp] theorem State.setVF_v (s : State) (b : Byte) : (s.setVF b).v = s.v.set 15 b := rfl
@[simp] theorem State.setVF_i (s : State) (b : Byte) : (s.setVF b).i = s.i := rfl
@[simp] theorem State.setVF_pc (s : State) (b : Byte) : (s.setVF b).pc = s.pc := rfl
@[simp] theorem State.setVF_sp (s : State) (b : Byte) : (s.setVF b).sp = s.sp := rfl
@[simp] theorem State.setVF_stack (s : State) (b : Byte) : (s.setVF b).stack = s.stack := rfl
@[simp] theorem State.setVF_dt (s : State) (b : Byte) : (s.setVF b).dt = s.dt := rfl
@[simp] theorem State.setVF_st (s : State) (b : Byte) : (s.setVF b).st = s.st := rfl
@[simp] theorem State.setVF_mem (s : State) (b : Byte) : (s.setVF b).mem = s.mem := rfl
@[simp] theorem State.setVF_fb (s : State) (b : Byte) : (s.setVF b).fb = s.fb := rfl
@[simp] theorem State.setVF_double (s : State) (b : Byte) : (s.setVF b).double = s.double := rfl
@[simp] theorem State.setVF_vbl (s : State) (b : Byte) : (s.setVF b).vbl = s.vbl := rfl
@[simp] theorem State.setVF_kw (s : State) (b : Byte) : (s.setVF b).kw = s.kw := rfl
@[simp] theorem State.setVF_kwk (s : State) (b : Byte) : (s.setVF b).kwk = s.kwk := rfl
@[simp] theorem State.setVF_fault (s : State) (b : Byte) : (s.setVF b).fault = s.fault := rfl
@[simp] theorem State.setVF_keys (s : State) (b : Byte) : (s.setVF b).keys = s.keys := rfl
@[simp] theorem State.setVF_lastKey (s : State) (b : Byte) : (s.setVF b).lastKey = s.lastKey := rfl
@[simp] theorem State.setVF_exit (s : State) (b : Byte) : (s.setVF b).exit = s.exit := rfl
@[simp] theorem State.setVF_toneReq (s : State) (b : Byte) : (s.setVF b).toneReq = s.toneReq := rfl
@[simp] theorem State.setVF_tLast (s : State) (b : Byte) : (s.setVF b).tLast = s.tLast := rfl
@[simp] theorem State.setVF_credit (s : State) (b : Byte) : (s.setVF b).credit = s.credit := rfl
@[simp] theorem State.setVF_phase (s : State) (b : Byte) : (s.setVF b).phase = s.phase := rfl
@[simp] theorem State.setVF_draws (s : State) (b : Byte) : (s.setVF b).draws = s.draws := rfl
@[simp] theorem State.setVF_out (s : State) (b : Byte) : (s.setVF b).out = s.out := rfl

@[simp] theorem State.setI_target (s : State) (w : Word) : (s.setI w).target = s.target := rfl
@[simp] theorem State.setI_v (s : State) (w : Word) : (s.setI w).v = s.v := rfl
@[simp] theorem State.setI_i (s : State) (w : Word) : (s.setI w).i = w := rfl
@[simp] theorem State.setI_pc (s : State) (w : Word) : (s.setI w).pc = s.pc := rfl
@[simp] theorem State.setI_sp (s : State) (w : Word) : (s.setI w).sp = s.sp := rfl
@[simp] theorem State.setI_stack (s : State) (w : Word) : (s.setI w).stack = s.stack := rfl
@[simp] theorem State.setI_dt (s : State) (w : Word) : (s.setI w).dt = s.dt := rfl
@[simp] theorem State.setI_st (s : State) (w : Word) : (s.setI w).st = s.st := rfl
@[simp] theorem State.setI_mem (s : State) (w : Word) : (s.setI w).mem = s.mem := rfl
@[simp] theorem State.setI_fb (s : State) (w : Word) : (s.setI w).fb = s.fb := rfl
@[simp] theorem State.setI_double (s : State) (w : Word) : (s.setI w).double = s.double := rfl
@[simp] theorem State.setI_vbl (s : State) (w : Word) : (s.setI w).vbl = s.vbl := rfl
@[simp] theorem State.setI_kw (s : State) (w : Word) : (s.setI w).kw = s.kw := rfl
@[simp] theorem State.setI_kwk (s : State) (w : Word) : (s.setI w).kwk = s.kwk := rfl
@[simp] theorem State.setI_fault (s : State) (w : Word) : (s.setI w).fault = s.fault := rfl
@[simp] theorem State.setI_keys (s : State) (w : Word) : (s.setI w).keys = s.keys := rfl
@[simp] theorem State.setI_lastKey (s : State) (w : Word) : (s.setI w).lastKey = s.lastKey := rfl
@[simp] theorem State.setI_exit (s : State) (w : Word) : (s.setI w).exit = s.exit := rfl
@[simp] theorem State.setI_toneReq (s : State) (w : Word) : (s.setI w).toneReq = s.toneReq := rfl
@[simp] theorem State.setI_tLast (s : State) (w : Word) : (s.setI w).tLast = s.tLast := rfl
@[simp] theorem State.setI_credit (s : State) (w : Word) : (s.setI w).credit = s.credit := rfl
@[simp] theorem State.setI_phase (s : State) (w : Word) : (s.setI w).phase = s.phase := rfl
@[simp] theorem State.setI_draws (s : State) (w : Word) : (s.setI w).draws = s.draws := rfl
@[simp] theorem State.setI_out (s : State) (w : Word) : (s.setI w).out = s.out := rfl

@[simp] theorem State.setPc_target (s : State) (w : Word) : (s.setPc w).target = s.target := rfl
@[simp] theorem State.setPc_v (s : State) (w : Word) : (s.setPc w).v = s.v := rfl
@[simp] theorem State.setPc_i (s : State) (w : Word) : (s.setPc w).i = s.i := rfl
@[simp] theorem State.setPc_pc (s : State) (w : Word) : (s.setPc w).pc = w := rfl
@[simp] theorem State.setPc_sp (s : State) (w : Word) : (s.setPc w).sp = s.sp := rfl
@[simp] theorem State.setPc_stack (s : State) (w : Word) : (s.setPc w).stack = s.stack := rfl
@[simp] theorem State.setPc_dt (s : State) (w : Word) : (s.setPc w).dt = s.dt := rfl
@[simp] theorem State.setPc_st (s : State) (w : Word) : (s.setPc w).st = s.st := rfl
@[simp] theorem State.setPc_mem (s : State) (w : Word) : (s.setPc w).mem = s.mem := rfl
@[simp] theorem State.setPc_fb (s : State) (w : Word) : (s.setPc w).fb = s.fb := rfl
@[simp] theorem State.setPc_double (s : State) (w : Word) : (s.setPc w).double = s.double := rfl
@[simp] theorem State.setPc_vbl (s : State) (w : Word) : (s.setPc w).vbl = s.vbl := rfl
@[simp] theorem State.setPc_kw (s : State) (w : Word) : (s.setPc w).kw = s.kw := rfl
@[simp] theorem State.setPc_kwk (s : State) (w : Word) : (s.setPc w).kwk = s.kwk := rfl
@[simp] theorem State.setPc_fault (s : State) (w : Word) : (s.setPc w).fault = s.fault := rfl
@[simp] theorem State.setPc_keys (s : State) (w : Word) : (s.setPc w).keys = s.keys := rfl
@[simp] theorem State.setPc_lastKey (s : State) (w : Word) : (s.setPc w).lastKey = s.lastKey := rfl
@[simp] theorem State.setPc_exit (s : State) (w : Word) : (s.setPc w).exit = s.exit := rfl
@[simp] theorem State.setPc_toneReq (s : State) (w : Word) : (s.setPc w).toneReq = s.toneReq := rfl
@[simp] theorem State.setPc_tLast (s : State) (w : Word) : (s.setPc w).tLast = s.tLast := rfl
@[simp] theorem State.setPc_credit (s : State) (w : Word) : (s.setPc w).credit = s.credit := rfl
@[simp] theorem State.setPc_phase (s : State) (w : Word) : (s.setPc w).phase = s.phase := rfl
@[simp] theorem State.setPc_draws (s : State) (w : Word) : (s.setPc w).draws = s.draws := rfl
@[simp] theorem State.setPc_out (s : State) (w : Word) : (s.setPc w).out = s.out := rfl

@[simp] theorem State.setSp_target (s : State) (n : BitVec 8) : (s.setSp n).target = s.target := rfl
@[simp] theorem State.setSp_v (s : State) (n : BitVec 8) : (s.setSp n).v = s.v := rfl
@[simp] theorem State.setSp_i (s : State) (n : BitVec 8) : (s.setSp n).i = s.i := rfl
@[simp] theorem State.setSp_pc (s : State) (n : BitVec 8) : (s.setSp n).pc = s.pc := rfl
@[simp] theorem State.setSp_sp (s : State) (n : BitVec 8) : (s.setSp n).sp = n := rfl
@[simp] theorem State.setSp_stack (s : State) (n : BitVec 8) : (s.setSp n).stack = s.stack := rfl
@[simp] theorem State.setSp_dt (s : State) (n : BitVec 8) : (s.setSp n).dt = s.dt := rfl
@[simp] theorem State.setSp_st (s : State) (n : BitVec 8) : (s.setSp n).st = s.st := rfl
@[simp] theorem State.setSp_mem (s : State) (n : BitVec 8) : (s.setSp n).mem = s.mem := rfl
@[simp] theorem State.setSp_fb (s : State) (n : BitVec 8) : (s.setSp n).fb = s.fb := rfl
@[simp] theorem State.setSp_double (s : State) (n : BitVec 8) : (s.setSp n).double = s.double := rfl
@[simp] theorem State.setSp_vbl (s : State) (n : BitVec 8) : (s.setSp n).vbl = s.vbl := rfl
@[simp] theorem State.setSp_kw (s : State) (n : BitVec 8) : (s.setSp n).kw = s.kw := rfl
@[simp] theorem State.setSp_kwk (s : State) (n : BitVec 8) : (s.setSp n).kwk = s.kwk := rfl
@[simp] theorem State.setSp_fault (s : State) (n : BitVec 8) : (s.setSp n).fault = s.fault := rfl
@[simp] theorem State.setSp_keys (s : State) (n : BitVec 8) : (s.setSp n).keys = s.keys := rfl
@[simp] theorem State.setSp_lastKey (s : State) (n : BitVec 8) : (s.setSp n).lastKey = s.lastKey := rfl
@[simp] theorem State.setSp_exit (s : State) (n : BitVec 8) : (s.setSp n).exit = s.exit := rfl
@[simp] theorem State.setSp_toneReq (s : State) (n : BitVec 8) : (s.setSp n).toneReq = s.toneReq := rfl
@[simp] theorem State.setSp_tLast (s : State) (n : BitVec 8) : (s.setSp n).tLast = s.tLast := rfl
@[simp] theorem State.setSp_credit (s : State) (n : BitVec 8) : (s.setSp n).credit = s.credit := rfl
@[simp] theorem State.setSp_phase (s : State) (n : BitVec 8) : (s.setSp n).phase = s.phase := rfl
@[simp] theorem State.setSp_draws (s : State) (n : BitVec 8) : (s.setSp n).draws = s.draws := rfl
@[simp] theorem State.setSp_out (s : State) (n : BitVec 8) : (s.setSp n).out = s.out := rfl

@[simp] theorem State.setStack_target (s : State) (k : Nat) (w : Word) : (s.setStack k w).target = s.target := rfl
@[simp] theorem State.setStack_v (s : State) (k : Nat) (w : Word) : (s.setStack k w).v = s.v := rfl
@[simp] theorem State.setStack_i (s : State) (k : Nat) (w : Word) : (s.setStack k w).i = s.i := rfl
@[simp] theorem State.setStack_pc (s : State) (k : Nat) (w : Word) : (s.setStack k w).pc = s.pc := rfl
@[simp] theorem State.setStack_sp (s : State) (k : Nat) (w : Word) : (s.setStack k w).sp = s.sp := rfl
@[simp] theorem State.setStack_stack (s : State) (k : Nat) (w : Word) : (s.setStack k w).stack =
    if h : k < 16 then s.stack.set k w else s.stack := rfl
@[simp] theorem State.setStack_dt (s : State) (k : Nat) (w : Word) : (s.setStack k w).dt = s.dt := rfl
@[simp] theorem State.setStack_st (s : State) (k : Nat) (w : Word) : (s.setStack k w).st = s.st := rfl
@[simp] theorem State.setStack_mem (s : State) (k : Nat) (w : Word) : (s.setStack k w).mem = s.mem := rfl
@[simp] theorem State.setStack_fb (s : State) (k : Nat) (w : Word) : (s.setStack k w).fb = s.fb := rfl
@[simp] theorem State.setStack_double (s : State) (k : Nat) (w : Word) : (s.setStack k w).double = s.double := rfl
@[simp] theorem State.setStack_vbl (s : State) (k : Nat) (w : Word) : (s.setStack k w).vbl = s.vbl := rfl
@[simp] theorem State.setStack_kw (s : State) (k : Nat) (w : Word) : (s.setStack k w).kw = s.kw := rfl
@[simp] theorem State.setStack_kwk (s : State) (k : Nat) (w : Word) : (s.setStack k w).kwk = s.kwk := rfl
@[simp] theorem State.setStack_fault (s : State) (k : Nat) (w : Word) : (s.setStack k w).fault = s.fault := rfl
@[simp] theorem State.setStack_keys (s : State) (k : Nat) (w : Word) : (s.setStack k w).keys = s.keys := rfl
@[simp] theorem State.setStack_lastKey (s : State) (k : Nat) (w : Word) : (s.setStack k w).lastKey = s.lastKey := rfl
@[simp] theorem State.setStack_exit (s : State) (k : Nat) (w : Word) : (s.setStack k w).exit = s.exit := rfl
@[simp] theorem State.setStack_toneReq (s : State) (k : Nat) (w : Word) : (s.setStack k w).toneReq = s.toneReq := rfl
@[simp] theorem State.setStack_tLast (s : State) (k : Nat) (w : Word) : (s.setStack k w).tLast = s.tLast := rfl
@[simp] theorem State.setStack_credit (s : State) (k : Nat) (w : Word) : (s.setStack k w).credit = s.credit := rfl
@[simp] theorem State.setStack_phase (s : State) (k : Nat) (w : Word) : (s.setStack k w).phase = s.phase := rfl
@[simp] theorem State.setStack_draws (s : State) (k : Nat) (w : Word) : (s.setStack k w).draws = s.draws := rfl
@[simp] theorem State.setStack_out (s : State) (k : Nat) (w : Word) : (s.setStack k w).out = s.out := rfl

@[simp] theorem State.setDt_target (s : State) (b : Byte) : (s.setDt b).target = s.target := rfl
@[simp] theorem State.setDt_v (s : State) (b : Byte) : (s.setDt b).v = s.v := rfl
@[simp] theorem State.setDt_i (s : State) (b : Byte) : (s.setDt b).i = s.i := rfl
@[simp] theorem State.setDt_pc (s : State) (b : Byte) : (s.setDt b).pc = s.pc := rfl
@[simp] theorem State.setDt_sp (s : State) (b : Byte) : (s.setDt b).sp = s.sp := rfl
@[simp] theorem State.setDt_stack (s : State) (b : Byte) : (s.setDt b).stack = s.stack := rfl
@[simp] theorem State.setDt_dt (s : State) (b : Byte) : (s.setDt b).dt = b := rfl
@[simp] theorem State.setDt_st (s : State) (b : Byte) : (s.setDt b).st = s.st := rfl
@[simp] theorem State.setDt_mem (s : State) (b : Byte) : (s.setDt b).mem = s.mem := rfl
@[simp] theorem State.setDt_fb (s : State) (b : Byte) : (s.setDt b).fb = s.fb := rfl
@[simp] theorem State.setDt_double (s : State) (b : Byte) : (s.setDt b).double = s.double := rfl
@[simp] theorem State.setDt_vbl (s : State) (b : Byte) : (s.setDt b).vbl = s.vbl := rfl
@[simp] theorem State.setDt_kw (s : State) (b : Byte) : (s.setDt b).kw = s.kw := rfl
@[simp] theorem State.setDt_kwk (s : State) (b : Byte) : (s.setDt b).kwk = s.kwk := rfl
@[simp] theorem State.setDt_fault (s : State) (b : Byte) : (s.setDt b).fault = s.fault := rfl
@[simp] theorem State.setDt_keys (s : State) (b : Byte) : (s.setDt b).keys = s.keys := rfl
@[simp] theorem State.setDt_lastKey (s : State) (b : Byte) : (s.setDt b).lastKey = s.lastKey := rfl
@[simp] theorem State.setDt_exit (s : State) (b : Byte) : (s.setDt b).exit = s.exit := rfl
@[simp] theorem State.setDt_toneReq (s : State) (b : Byte) : (s.setDt b).toneReq = s.toneReq := rfl
@[simp] theorem State.setDt_tLast (s : State) (b : Byte) : (s.setDt b).tLast = s.tLast := rfl
@[simp] theorem State.setDt_credit (s : State) (b : Byte) : (s.setDt b).credit = s.credit := rfl
@[simp] theorem State.setDt_phase (s : State) (b : Byte) : (s.setDt b).phase = s.phase := rfl
@[simp] theorem State.setDt_draws (s : State) (b : Byte) : (s.setDt b).draws = s.draws := rfl
@[simp] theorem State.setDt_out (s : State) (b : Byte) : (s.setDt b).out = s.out := rfl

@[simp] theorem State.setSt_target (s : State) (b : Byte) : (s.setSt b).target = s.target := rfl
@[simp] theorem State.setSt_v (s : State) (b : Byte) : (s.setSt b).v = s.v := rfl
@[simp] theorem State.setSt_i (s : State) (b : Byte) : (s.setSt b).i = s.i := rfl
@[simp] theorem State.setSt_pc (s : State) (b : Byte) : (s.setSt b).pc = s.pc := rfl
@[simp] theorem State.setSt_sp (s : State) (b : Byte) : (s.setSt b).sp = s.sp := rfl
@[simp] theorem State.setSt_stack (s : State) (b : Byte) : (s.setSt b).stack = s.stack := rfl
@[simp] theorem State.setSt_dt (s : State) (b : Byte) : (s.setSt b).dt = s.dt := rfl
@[simp] theorem State.setSt_st (s : State) (b : Byte) : (s.setSt b).st = b := rfl
@[simp] theorem State.setSt_mem (s : State) (b : Byte) : (s.setSt b).mem = s.mem := rfl
@[simp] theorem State.setSt_fb (s : State) (b : Byte) : (s.setSt b).fb = s.fb := rfl
@[simp] theorem State.setSt_double (s : State) (b : Byte) : (s.setSt b).double = s.double := rfl
@[simp] theorem State.setSt_vbl (s : State) (b : Byte) : (s.setSt b).vbl = s.vbl := rfl
@[simp] theorem State.setSt_kw (s : State) (b : Byte) : (s.setSt b).kw = s.kw := rfl
@[simp] theorem State.setSt_kwk (s : State) (b : Byte) : (s.setSt b).kwk = s.kwk := rfl
@[simp] theorem State.setSt_fault (s : State) (b : Byte) : (s.setSt b).fault = s.fault := rfl
@[simp] theorem State.setSt_keys (s : State) (b : Byte) : (s.setSt b).keys = s.keys := rfl
@[simp] theorem State.setSt_lastKey (s : State) (b : Byte) : (s.setSt b).lastKey = s.lastKey := rfl
@[simp] theorem State.setSt_exit (s : State) (b : Byte) : (s.setSt b).exit = s.exit := rfl
@[simp] theorem State.setSt_toneReq (s : State) (b : Byte) : (s.setSt b).toneReq = s.toneReq := rfl
@[simp] theorem State.setSt_tLast (s : State) (b : Byte) : (s.setSt b).tLast = s.tLast := rfl
@[simp] theorem State.setSt_credit (s : State) (b : Byte) : (s.setSt b).credit = s.credit := rfl
@[simp] theorem State.setSt_phase (s : State) (b : Byte) : (s.setSt b).phase = s.phase := rfl
@[simp] theorem State.setSt_draws (s : State) (b : Byte) : (s.setSt b).draws = s.draws := rfl
@[simp] theorem State.setSt_out (s : State) (b : Byte) : (s.setSt b).out = s.out := rfl

@[simp] theorem State.setMem_target (s : State) (m : Memory) : (s.setMem m).target = s.target := rfl
@[simp] theorem State.setMem_v (s : State) (m : Memory) : (s.setMem m).v = s.v := rfl
@[simp] theorem State.setMem_i (s : State) (m : Memory) : (s.setMem m).i = s.i := rfl
@[simp] theorem State.setMem_pc (s : State) (m : Memory) : (s.setMem m).pc = s.pc := rfl
@[simp] theorem State.setMem_sp (s : State) (m : Memory) : (s.setMem m).sp = s.sp := rfl
@[simp] theorem State.setMem_stack (s : State) (m : Memory) : (s.setMem m).stack = s.stack := rfl
@[simp] theorem State.setMem_dt (s : State) (m : Memory) : (s.setMem m).dt = s.dt := rfl
@[simp] theorem State.setMem_st (s : State) (m : Memory) : (s.setMem m).st = s.st := rfl
@[simp] theorem State.setMem_mem (s : State) (m : Memory) : (s.setMem m).mem = m := rfl
@[simp] theorem State.setMem_fb (s : State) (m : Memory) : (s.setMem m).fb = s.fb := rfl
@[simp] theorem State.setMem_double (s : State) (m : Memory) : (s.setMem m).double = s.double := rfl
@[simp] theorem State.setMem_vbl (s : State) (m : Memory) : (s.setMem m).vbl = s.vbl := rfl
@[simp] theorem State.setMem_kw (s : State) (m : Memory) : (s.setMem m).kw = s.kw := rfl
@[simp] theorem State.setMem_kwk (s : State) (m : Memory) : (s.setMem m).kwk = s.kwk := rfl
@[simp] theorem State.setMem_fault (s : State) (m : Memory) : (s.setMem m).fault = s.fault := rfl
@[simp] theorem State.setMem_keys (s : State) (m : Memory) : (s.setMem m).keys = s.keys := rfl
@[simp] theorem State.setMem_lastKey (s : State) (m : Memory) : (s.setMem m).lastKey = s.lastKey := rfl
@[simp] theorem State.setMem_exit (s : State) (m : Memory) : (s.setMem m).exit = s.exit := rfl
@[simp] theorem State.setMem_toneReq (s : State) (m : Memory) : (s.setMem m).toneReq = s.toneReq := rfl
@[simp] theorem State.setMem_tLast (s : State) (m : Memory) : (s.setMem m).tLast = s.tLast := rfl
@[simp] theorem State.setMem_credit (s : State) (m : Memory) : (s.setMem m).credit = s.credit := rfl
@[simp] theorem State.setMem_phase (s : State) (m : Memory) : (s.setMem m).phase = s.phase := rfl
@[simp] theorem State.setMem_draws (s : State) (m : Memory) : (s.setMem m).draws = s.draws := rfl
@[simp] theorem State.setMem_out (s : State) (m : Memory) : (s.setMem m).out = s.out := rfl

@[simp] theorem State.setFb_target (s : State) (fb : FrameBuffer) : (s.setFb fb).target = s.target := rfl
@[simp] theorem State.setFb_v (s : State) (fb : FrameBuffer) : (s.setFb fb).v = s.v := rfl
@[simp] theorem State.setFb_i (s : State) (fb : FrameBuffer) : (s.setFb fb).i = s.i := rfl
@[simp] theorem State.setFb_pc (s : State) (fb : FrameBuffer) : (s.setFb fb).pc = s.pc := rfl
@[simp] theorem State.setFb_sp (s : State) (fb : FrameBuffer) : (s.setFb fb).sp = s.sp := rfl
@[simp] theorem State.setFb_stack (s : State) (fb : FrameBuffer) : (s.setFb fb).stack = s.stack := rfl
@[simp] theorem State.setFb_dt (s : State) (fb : FrameBuffer) : (s.setFb fb).dt = s.dt := rfl
@[simp] theorem State.setFb_st (s : State) (fb : FrameBuffer) : (s.setFb fb).st = s.st := rfl
@[simp] theorem State.setFb_mem (s : State) (fb : FrameBuffer) : (s.setFb fb).mem = s.mem := rfl
@[simp] theorem State.setFb_fb (s : State) (fb : FrameBuffer) : (s.setFb fb).fb = fb := rfl
@[simp] theorem State.setFb_double (s : State) (fb : FrameBuffer) : (s.setFb fb).double = s.double := rfl
@[simp] theorem State.setFb_vbl (s : State) (fb : FrameBuffer) : (s.setFb fb).vbl = s.vbl := rfl
@[simp] theorem State.setFb_kw (s : State) (fb : FrameBuffer) : (s.setFb fb).kw = s.kw := rfl
@[simp] theorem State.setFb_kwk (s : State) (fb : FrameBuffer) : (s.setFb fb).kwk = s.kwk := rfl
@[simp] theorem State.setFb_fault (s : State) (fb : FrameBuffer) : (s.setFb fb).fault = s.fault := rfl
@[simp] theorem State.setFb_keys (s : State) (fb : FrameBuffer) : (s.setFb fb).keys = s.keys := rfl
@[simp] theorem State.setFb_lastKey (s : State) (fb : FrameBuffer) : (s.setFb fb).lastKey = s.lastKey := rfl
@[simp] theorem State.setFb_exit (s : State) (fb : FrameBuffer) : (s.setFb fb).exit = s.exit := rfl
@[simp] theorem State.setFb_toneReq (s : State) (fb : FrameBuffer) : (s.setFb fb).toneReq = s.toneReq := rfl
@[simp] theorem State.setFb_tLast (s : State) (fb : FrameBuffer) : (s.setFb fb).tLast = s.tLast := rfl
@[simp] theorem State.setFb_credit (s : State) (fb : FrameBuffer) : (s.setFb fb).credit = s.credit := rfl
@[simp] theorem State.setFb_phase (s : State) (fb : FrameBuffer) : (s.setFb fb).phase = s.phase := rfl
@[simp] theorem State.setFb_draws (s : State) (fb : FrameBuffer) : (s.setFb fb).draws = s.draws := rfl
@[simp] theorem State.setFb_out (s : State) (fb : FrameBuffer) : (s.setFb fb).out = s.out := rfl

@[simp] theorem State.setDouble_target (s : State) (d : Bool) : (s.setDouble d).target = s.target := rfl
@[simp] theorem State.setDouble_v (s : State) (d : Bool) : (s.setDouble d).v = s.v := rfl
@[simp] theorem State.setDouble_i (s : State) (d : Bool) : (s.setDouble d).i = s.i := rfl
@[simp] theorem State.setDouble_pc (s : State) (d : Bool) : (s.setDouble d).pc = s.pc := rfl
@[simp] theorem State.setDouble_sp (s : State) (d : Bool) : (s.setDouble d).sp = s.sp := rfl
@[simp] theorem State.setDouble_stack (s : State) (d : Bool) : (s.setDouble d).stack = s.stack := rfl
@[simp] theorem State.setDouble_dt (s : State) (d : Bool) : (s.setDouble d).dt = s.dt := rfl
@[simp] theorem State.setDouble_st (s : State) (d : Bool) : (s.setDouble d).st = s.st := rfl
@[simp] theorem State.setDouble_mem (s : State) (d : Bool) : (s.setDouble d).mem = s.mem := rfl
@[simp] theorem State.setDouble_fb (s : State) (d : Bool) : (s.setDouble d).fb = s.fb := rfl
@[simp] theorem State.setDouble_double (s : State) (d : Bool) : (s.setDouble d).double = d := rfl
@[simp] theorem State.setDouble_vbl (s : State) (d : Bool) : (s.setDouble d).vbl = s.vbl := rfl
@[simp] theorem State.setDouble_kw (s : State) (d : Bool) : (s.setDouble d).kw = s.kw := rfl
@[simp] theorem State.setDouble_kwk (s : State) (d : Bool) : (s.setDouble d).kwk = s.kwk := rfl
@[simp] theorem State.setDouble_fault (s : State) (d : Bool) : (s.setDouble d).fault = s.fault := rfl
@[simp] theorem State.setDouble_keys (s : State) (d : Bool) : (s.setDouble d).keys = s.keys := rfl
@[simp] theorem State.setDouble_lastKey (s : State) (d : Bool) : (s.setDouble d).lastKey = s.lastKey := rfl
@[simp] theorem State.setDouble_exit (s : State) (d : Bool) : (s.setDouble d).exit = s.exit := rfl
@[simp] theorem State.setDouble_toneReq (s : State) (d : Bool) : (s.setDouble d).toneReq = s.toneReq := rfl
@[simp] theorem State.setDouble_tLast (s : State) (d : Bool) : (s.setDouble d).tLast = s.tLast := rfl
@[simp] theorem State.setDouble_credit (s : State) (d : Bool) : (s.setDouble d).credit = s.credit := rfl
@[simp] theorem State.setDouble_phase (s : State) (d : Bool) : (s.setDouble d).phase = s.phase := rfl
@[simp] theorem State.setDouble_draws (s : State) (d : Bool) : (s.setDouble d).draws = s.draws := rfl
@[simp] theorem State.setDouble_out (s : State) (d : Bool) : (s.setDouble d).out = s.out := rfl

@[simp] theorem State.setVbl_target (s : State) (b : Bool) : (s.setVbl b).target = s.target := rfl
@[simp] theorem State.setVbl_v (s : State) (b : Bool) : (s.setVbl b).v = s.v := rfl
@[simp] theorem State.setVbl_i (s : State) (b : Bool) : (s.setVbl b).i = s.i := rfl
@[simp] theorem State.setVbl_pc (s : State) (b : Bool) : (s.setVbl b).pc = s.pc := rfl
@[simp] theorem State.setVbl_sp (s : State) (b : Bool) : (s.setVbl b).sp = s.sp := rfl
@[simp] theorem State.setVbl_stack (s : State) (b : Bool) : (s.setVbl b).stack = s.stack := rfl
@[simp] theorem State.setVbl_dt (s : State) (b : Bool) : (s.setVbl b).dt = s.dt := rfl
@[simp] theorem State.setVbl_st (s : State) (b : Bool) : (s.setVbl b).st = s.st := rfl
@[simp] theorem State.setVbl_mem (s : State) (b : Bool) : (s.setVbl b).mem = s.mem := rfl
@[simp] theorem State.setVbl_fb (s : State) (b : Bool) : (s.setVbl b).fb = s.fb := rfl
@[simp] theorem State.setVbl_double (s : State) (b : Bool) : (s.setVbl b).double = s.double := rfl
@[simp] theorem State.setVbl_vbl (s : State) (b : Bool) : (s.setVbl b).vbl = b := rfl
@[simp] theorem State.setVbl_kw (s : State) (b : Bool) : (s.setVbl b).kw = s.kw := rfl
@[simp] theorem State.setVbl_kwk (s : State) (b : Bool) : (s.setVbl b).kwk = s.kwk := rfl
@[simp] theorem State.setVbl_fault (s : State) (b : Bool) : (s.setVbl b).fault = s.fault := rfl
@[simp] theorem State.setVbl_keys (s : State) (b : Bool) : (s.setVbl b).keys = s.keys := rfl
@[simp] theorem State.setVbl_lastKey (s : State) (b : Bool) : (s.setVbl b).lastKey = s.lastKey := rfl
@[simp] theorem State.setVbl_exit (s : State) (b : Bool) : (s.setVbl b).exit = s.exit := rfl
@[simp] theorem State.setVbl_toneReq (s : State) (b : Bool) : (s.setVbl b).toneReq = s.toneReq := rfl
@[simp] theorem State.setVbl_tLast (s : State) (b : Bool) : (s.setVbl b).tLast = s.tLast := rfl
@[simp] theorem State.setVbl_credit (s : State) (b : Bool) : (s.setVbl b).credit = s.credit := rfl
@[simp] theorem State.setVbl_phase (s : State) (b : Bool) : (s.setVbl b).phase = s.phase := rfl
@[simp] theorem State.setVbl_draws (s : State) (b : Bool) : (s.setVbl b).draws = s.draws := rfl
@[simp] theorem State.setVbl_out (s : State) (b : Bool) : (s.setVbl b).out = s.out := rfl

@[simp] theorem State.setKeyWait_target (s : State) (w : KeyWait) (k : Key) : (s.setKeyWait w k).target = s.target := rfl
@[simp] theorem State.setKeyWait_v (s : State) (w : KeyWait) (k : Key) : (s.setKeyWait w k).v = s.v := rfl
@[simp] theorem State.setKeyWait_i (s : State) (w : KeyWait) (k : Key) : (s.setKeyWait w k).i = s.i := rfl
@[simp] theorem State.setKeyWait_pc (s : State) (w : KeyWait) (k : Key) : (s.setKeyWait w k).pc = s.pc := rfl
@[simp] theorem State.setKeyWait_sp (s : State) (w : KeyWait) (k : Key) : (s.setKeyWait w k).sp = s.sp := rfl
@[simp] theorem State.setKeyWait_stack (s : State) (w : KeyWait) (k : Key) : (s.setKeyWait w k).stack = s.stack := rfl
@[simp] theorem State.setKeyWait_dt (s : State) (w : KeyWait) (k : Key) : (s.setKeyWait w k).dt = s.dt := rfl
@[simp] theorem State.setKeyWait_st (s : State) (w : KeyWait) (k : Key) : (s.setKeyWait w k).st = s.st := rfl
@[simp] theorem State.setKeyWait_mem (s : State) (w : KeyWait) (k : Key) : (s.setKeyWait w k).mem = s.mem := rfl
@[simp] theorem State.setKeyWait_fb (s : State) (w : KeyWait) (k : Key) : (s.setKeyWait w k).fb = s.fb := rfl
@[simp] theorem State.setKeyWait_double (s : State) (w : KeyWait) (k : Key) : (s.setKeyWait w k).double = s.double := rfl
@[simp] theorem State.setKeyWait_vbl (s : State) (w : KeyWait) (k : Key) : (s.setKeyWait w k).vbl = s.vbl := rfl
@[simp] theorem State.setKeyWait_kw (s : State) (w : KeyWait) (k : Key) : (s.setKeyWait w k).kw = w := rfl
@[simp] theorem State.setKeyWait_kwk (s : State) (w : KeyWait) (k : Key) : (s.setKeyWait w k).kwk = k := rfl
@[simp] theorem State.setKeyWait_fault (s : State) (w : KeyWait) (k : Key) : (s.setKeyWait w k).fault = s.fault := rfl
@[simp] theorem State.setKeyWait_keys (s : State) (w : KeyWait) (k : Key) : (s.setKeyWait w k).keys = s.keys := rfl
@[simp] theorem State.setKeyWait_lastKey (s : State) (w : KeyWait) (k : Key) : (s.setKeyWait w k).lastKey = s.lastKey := rfl
@[simp] theorem State.setKeyWait_exit (s : State) (w : KeyWait) (k : Key) : (s.setKeyWait w k).exit = s.exit := rfl
@[simp] theorem State.setKeyWait_toneReq (s : State) (w : KeyWait) (k : Key) : (s.setKeyWait w k).toneReq = s.toneReq := rfl
@[simp] theorem State.setKeyWait_tLast (s : State) (w : KeyWait) (k : Key) : (s.setKeyWait w k).tLast = s.tLast := rfl
@[simp] theorem State.setKeyWait_credit (s : State) (w : KeyWait) (k : Key) : (s.setKeyWait w k).credit = s.credit := rfl
@[simp] theorem State.setKeyWait_phase (s : State) (w : KeyWait) (k : Key) : (s.setKeyWait w k).phase = s.phase := rfl
@[simp] theorem State.setKeyWait_draws (s : State) (w : KeyWait) (k : Key) : (s.setKeyWait w k).draws = s.draws := rfl
@[simp] theorem State.setKeyWait_out (s : State) (w : KeyWait) (k : Key) : (s.setKeyWait w k).out = s.out := rfl

@[simp] theorem State.drawn_target (s : State) : (s.drawn).target = s.target := rfl
@[simp] theorem State.drawn_v (s : State) : (s.drawn).v = s.v := rfl
@[simp] theorem State.drawn_i (s : State) : (s.drawn).i = s.i := rfl
@[simp] theorem State.drawn_pc (s : State) : (s.drawn).pc = s.pc := rfl
@[simp] theorem State.drawn_sp (s : State) : (s.drawn).sp = s.sp := rfl
@[simp] theorem State.drawn_stack (s : State) : (s.drawn).stack = s.stack := rfl
@[simp] theorem State.drawn_dt (s : State) : (s.drawn).dt = s.dt := rfl
@[simp] theorem State.drawn_st (s : State) : (s.drawn).st = s.st := rfl
@[simp] theorem State.drawn_mem (s : State) : (s.drawn).mem = s.mem := rfl
@[simp] theorem State.drawn_fb (s : State) : (s.drawn).fb = s.fb := rfl
@[simp] theorem State.drawn_double (s : State) : (s.drawn).double = s.double := rfl
@[simp] theorem State.drawn_vbl (s : State) : (s.drawn).vbl = s.vbl := rfl
@[simp] theorem State.drawn_kw (s : State) : (s.drawn).kw = s.kw := rfl
@[simp] theorem State.drawn_kwk (s : State) : (s.drawn).kwk = s.kwk := rfl
@[simp] theorem State.drawn_fault (s : State) : (s.drawn).fault = s.fault := rfl
@[simp] theorem State.drawn_keys (s : State) : (s.drawn).keys = s.keys := rfl
@[simp] theorem State.drawn_lastKey (s : State) : (s.drawn).lastKey = s.lastKey := rfl
@[simp] theorem State.drawn_exit (s : State) : (s.drawn).exit = s.exit := rfl
@[simp] theorem State.drawn_toneReq (s : State) : (s.drawn).toneReq = s.toneReq := rfl
@[simp] theorem State.drawn_tLast (s : State) : (s.drawn).tLast = s.tLast := rfl
@[simp] theorem State.drawn_credit (s : State) : (s.drawn).credit = s.credit := rfl
@[simp] theorem State.drawn_phase (s : State) : (s.drawn).phase = s.phase := rfl
@[simp] theorem State.drawn_draws (s : State) : (s.drawn).draws = s.draws + 1 := rfl
@[simp] theorem State.drawn_out (s : State) : (s.drawn).out = s.out := rfl

@[simp] theorem State.emit_target (s : State) (e : HostEvent) : (s.emit e).target = s.target := rfl
@[simp] theorem State.emit_v (s : State) (e : HostEvent) : (s.emit e).v = s.v := rfl
@[simp] theorem State.emit_i (s : State) (e : HostEvent) : (s.emit e).i = s.i := rfl
@[simp] theorem State.emit_pc (s : State) (e : HostEvent) : (s.emit e).pc = s.pc := rfl
@[simp] theorem State.emit_sp (s : State) (e : HostEvent) : (s.emit e).sp = s.sp := rfl
@[simp] theorem State.emit_stack (s : State) (e : HostEvent) : (s.emit e).stack = s.stack := rfl
@[simp] theorem State.emit_dt (s : State) (e : HostEvent) : (s.emit e).dt = s.dt := rfl
@[simp] theorem State.emit_st (s : State) (e : HostEvent) : (s.emit e).st = s.st := rfl
@[simp] theorem State.emit_mem (s : State) (e : HostEvent) : (s.emit e).mem = s.mem := rfl
@[simp] theorem State.emit_fb (s : State) (e : HostEvent) : (s.emit e).fb = s.fb := rfl
@[simp] theorem State.emit_double (s : State) (e : HostEvent) : (s.emit e).double = s.double := rfl
@[simp] theorem State.emit_vbl (s : State) (e : HostEvent) : (s.emit e).vbl = s.vbl := rfl
@[simp] theorem State.emit_kw (s : State) (e : HostEvent) : (s.emit e).kw = s.kw := rfl
@[simp] theorem State.emit_kwk (s : State) (e : HostEvent) : (s.emit e).kwk = s.kwk := rfl
@[simp] theorem State.emit_fault (s : State) (e : HostEvent) : (s.emit e).fault = s.fault := rfl
@[simp] theorem State.emit_keys (s : State) (e : HostEvent) : (s.emit e).keys = s.keys := rfl
@[simp] theorem State.emit_lastKey (s : State) (e : HostEvent) : (s.emit e).lastKey = s.lastKey := rfl
@[simp] theorem State.emit_exit (s : State) (e : HostEvent) : (s.emit e).exit = s.exit := rfl
@[simp] theorem State.emit_toneReq (s : State) (e : HostEvent) : (s.emit e).toneReq = s.toneReq := rfl
@[simp] theorem State.emit_tLast (s : State) (e : HostEvent) : (s.emit e).tLast = s.tLast := rfl
@[simp] theorem State.emit_credit (s : State) (e : HostEvent) : (s.emit e).credit = s.credit := rfl
@[simp] theorem State.emit_phase (s : State) (e : HostEvent) : (s.emit e).phase = s.phase := rfl
@[simp] theorem State.emit_draws (s : State) (e : HostEvent) : (s.emit e).draws = s.draws := rfl
@[simp] theorem State.emit_out (s : State) (e : HostEvent) : (s.emit e).out = e :: s.out := rfl

@[simp] theorem State.goto_target (s : State) (p : Phase) : (s.goto p).target = s.target := rfl
@[simp] theorem State.goto_v (s : State) (p : Phase) : (s.goto p).v = s.v := rfl
@[simp] theorem State.goto_i (s : State) (p : Phase) : (s.goto p).i = s.i := rfl
@[simp] theorem State.goto_pc (s : State) (p : Phase) : (s.goto p).pc = s.pc := rfl
@[simp] theorem State.goto_sp (s : State) (p : Phase) : (s.goto p).sp = s.sp := rfl
@[simp] theorem State.goto_stack (s : State) (p : Phase) : (s.goto p).stack = s.stack := rfl
@[simp] theorem State.goto_dt (s : State) (p : Phase) : (s.goto p).dt = s.dt := rfl
@[simp] theorem State.goto_st (s : State) (p : Phase) : (s.goto p).st = s.st := rfl
@[simp] theorem State.goto_mem (s : State) (p : Phase) : (s.goto p).mem = s.mem := rfl
@[simp] theorem State.goto_fb (s : State) (p : Phase) : (s.goto p).fb = s.fb := rfl
@[simp] theorem State.goto_double (s : State) (p : Phase) : (s.goto p).double = s.double := rfl
@[simp] theorem State.goto_vbl (s : State) (p : Phase) : (s.goto p).vbl = s.vbl := rfl
@[simp] theorem State.goto_kw (s : State) (p : Phase) : (s.goto p).kw = s.kw := rfl
@[simp] theorem State.goto_kwk (s : State) (p : Phase) : (s.goto p).kwk = s.kwk := rfl
@[simp] theorem State.goto_fault (s : State) (p : Phase) : (s.goto p).fault = s.fault := rfl
@[simp] theorem State.goto_keys (s : State) (p : Phase) : (s.goto p).keys = s.keys := rfl
@[simp] theorem State.goto_lastKey (s : State) (p : Phase) : (s.goto p).lastKey = s.lastKey := rfl
@[simp] theorem State.goto_exit (s : State) (p : Phase) : (s.goto p).exit = s.exit := rfl
@[simp] theorem State.goto_toneReq (s : State) (p : Phase) : (s.goto p).toneReq = s.toneReq := rfl
@[simp] theorem State.goto_tLast (s : State) (p : Phase) : (s.goto p).tLast = s.tLast := rfl
@[simp] theorem State.goto_credit (s : State) (p : Phase) : (s.goto p).credit = s.credit := rfl
@[simp] theorem State.goto_phase (s : State) (p : Phase) : (s.goto p).phase = p := rfl
@[simp] theorem State.goto_draws (s : State) (p : Phase) : (s.goto p).draws = s.draws := rfl
@[simp] theorem State.goto_out (s : State) (p : Phase) : (s.goto p).out = s.out := rfl

@[simp] theorem State.advance_target (s : State) : (s.advance).target = s.target := rfl
@[simp] theorem State.advance_v (s : State) : (s.advance).v = s.v := rfl
@[simp] theorem State.advance_i (s : State) : (s.advance).i = s.i := rfl
@[simp] theorem State.advance_pc (s : State) : (s.advance).pc = s.pc + 2 := rfl
@[simp] theorem State.advance_sp (s : State) : (s.advance).sp = s.sp := rfl
@[simp] theorem State.advance_stack (s : State) : (s.advance).stack = s.stack := rfl
@[simp] theorem State.advance_dt (s : State) : (s.advance).dt = s.dt := rfl
@[simp] theorem State.advance_st (s : State) : (s.advance).st = s.st := rfl
@[simp] theorem State.advance_mem (s : State) : (s.advance).mem = s.mem := rfl
@[simp] theorem State.advance_fb (s : State) : (s.advance).fb = s.fb := rfl
@[simp] theorem State.advance_double (s : State) : (s.advance).double = s.double := rfl
@[simp] theorem State.advance_vbl (s : State) : (s.advance).vbl = s.vbl := rfl
@[simp] theorem State.advance_kw (s : State) : (s.advance).kw = s.kw := rfl
@[simp] theorem State.advance_kwk (s : State) : (s.advance).kwk = s.kwk := rfl
@[simp] theorem State.advance_fault (s : State) : (s.advance).fault = s.fault := rfl
@[simp] theorem State.advance_keys (s : State) : (s.advance).keys = s.keys := rfl
@[simp] theorem State.advance_lastKey (s : State) : (s.advance).lastKey = s.lastKey := rfl
@[simp] theorem State.advance_exit (s : State) : (s.advance).exit = s.exit := rfl
@[simp] theorem State.advance_toneReq (s : State) : (s.advance).toneReq = s.toneReq := rfl
@[simp] theorem State.advance_tLast (s : State) : (s.advance).tLast = s.tLast := rfl
@[simp] theorem State.advance_credit (s : State) : (s.advance).credit = s.credit := rfl
@[simp] theorem State.advance_phase (s : State) : (s.advance).phase = s.phase := rfl
@[simp] theorem State.advance_draws (s : State) : (s.advance).draws = s.draws := rfl
@[simp] theorem State.advance_out (s : State) : (s.advance).out = s.out := rfl

@[simp] theorem State.skipIf_target (s : State) (c : Bool) : (s.skipIf c).target = s.target := rfl
@[simp] theorem State.skipIf_v (s : State) (c : Bool) : (s.skipIf c).v = s.v := rfl
@[simp] theorem State.skipIf_i (s : State) (c : Bool) : (s.skipIf c).i = s.i := rfl
@[simp] theorem State.skipIf_pc (s : State) (c : Bool) : (s.skipIf c).pc = if c then s.pc + 4 else s.pc + 2 := rfl
@[simp] theorem State.skipIf_sp (s : State) (c : Bool) : (s.skipIf c).sp = s.sp := rfl
@[simp] theorem State.skipIf_stack (s : State) (c : Bool) : (s.skipIf c).stack = s.stack := rfl
@[simp] theorem State.skipIf_dt (s : State) (c : Bool) : (s.skipIf c).dt = s.dt := rfl
@[simp] theorem State.skipIf_st (s : State) (c : Bool) : (s.skipIf c).st = s.st := rfl
@[simp] theorem State.skipIf_mem (s : State) (c : Bool) : (s.skipIf c).mem = s.mem := rfl
@[simp] theorem State.skipIf_fb (s : State) (c : Bool) : (s.skipIf c).fb = s.fb := rfl
@[simp] theorem State.skipIf_double (s : State) (c : Bool) : (s.skipIf c).double = s.double := rfl
@[simp] theorem State.skipIf_vbl (s : State) (c : Bool) : (s.skipIf c).vbl = s.vbl := rfl
@[simp] theorem State.skipIf_kw (s : State) (c : Bool) : (s.skipIf c).kw = s.kw := rfl
@[simp] theorem State.skipIf_kwk (s : State) (c : Bool) : (s.skipIf c).kwk = s.kwk := rfl
@[simp] theorem State.skipIf_fault (s : State) (c : Bool) : (s.skipIf c).fault = s.fault := rfl
@[simp] theorem State.skipIf_keys (s : State) (c : Bool) : (s.skipIf c).keys = s.keys := rfl
@[simp] theorem State.skipIf_lastKey (s : State) (c : Bool) : (s.skipIf c).lastKey = s.lastKey := rfl
@[simp] theorem State.skipIf_exit (s : State) (c : Bool) : (s.skipIf c).exit = s.exit := rfl
@[simp] theorem State.skipIf_toneReq (s : State) (c : Bool) : (s.skipIf c).toneReq = s.toneReq := rfl
@[simp] theorem State.skipIf_tLast (s : State) (c : Bool) : (s.skipIf c).tLast = s.tLast := rfl
@[simp] theorem State.skipIf_credit (s : State) (c : Bool) : (s.skipIf c).credit = s.credit := rfl
@[simp] theorem State.skipIf_phase (s : State) (c : Bool) : (s.skipIf c).phase = s.phase := rfl
@[simp] theorem State.skipIf_draws (s : State) (c : Bool) : (s.skipIf c).draws = s.draws := rfl
@[simp] theorem State.skipIf_out (s : State) (c : Bool) : (s.skipIf c).out = s.out := rfl

@[simp] theorem State.raise_target (s : State) (c : FaultCause) (a : Word) : (s.raise c a).target = s.target := rfl
@[simp] theorem State.raise_v (s : State) (c : FaultCause) (a : Word) : (s.raise c a).v = s.v := rfl
@[simp] theorem State.raise_i (s : State) (c : FaultCause) (a : Word) : (s.raise c a).i = s.i := rfl
@[simp] theorem State.raise_pc (s : State) (c : FaultCause) (a : Word) : (s.raise c a).pc = s.pc := rfl
@[simp] theorem State.raise_sp (s : State) (c : FaultCause) (a : Word) : (s.raise c a).sp = s.sp := rfl
@[simp] theorem State.raise_stack (s : State) (c : FaultCause) (a : Word) : (s.raise c a).stack = s.stack := rfl
@[simp] theorem State.raise_dt (s : State) (c : FaultCause) (a : Word) : (s.raise c a).dt = s.dt := rfl
@[simp] theorem State.raise_st (s : State) (c : FaultCause) (a : Word) : (s.raise c a).st = s.st := rfl
@[simp] theorem State.raise_mem (s : State) (c : FaultCause) (a : Word) : (s.raise c a).mem = s.mem := rfl
@[simp] theorem State.raise_fb (s : State) (c : FaultCause) (a : Word) : (s.raise c a).fb = s.fb := rfl
@[simp] theorem State.raise_double (s : State) (c : FaultCause) (a : Word) : (s.raise c a).double = s.double := rfl
@[simp] theorem State.raise_vbl (s : State) (c : FaultCause) (a : Word) : (s.raise c a).vbl = s.vbl := rfl
@[simp] theorem State.raise_kw (s : State) (c : FaultCause) (a : Word) : (s.raise c a).kw = s.kw := rfl
@[simp] theorem State.raise_kwk (s : State) (c : FaultCause) (a : Word) : (s.raise c a).kwk = s.kwk := rfl
@[simp] theorem State.raise_fault (s : State) (c : FaultCause) (a : Word) : (s.raise c a).fault = some { cause := c, pc := s.pc, info := a } := rfl
@[simp] theorem State.raise_keys (s : State) (c : FaultCause) (a : Word) : (s.raise c a).keys = s.keys := rfl
@[simp] theorem State.raise_lastKey (s : State) (c : FaultCause) (a : Word) : (s.raise c a).lastKey = s.lastKey := rfl
@[simp] theorem State.raise_exit (s : State) (c : FaultCause) (a : Word) : (s.raise c a).exit = s.exit := rfl
@[simp] theorem State.raise_toneReq (s : State) (c : FaultCause) (a : Word) : (s.raise c a).toneReq = s.toneReq := rfl
@[simp] theorem State.raise_tLast (s : State) (c : FaultCause) (a : Word) : (s.raise c a).tLast = s.tLast := rfl
@[simp] theorem State.raise_credit (s : State) (c : FaultCause) (a : Word) : (s.raise c a).credit = s.credit := rfl
@[simp] theorem State.raise_phase (s : State) (c : FaultCause) (a : Word) : (s.raise c a).phase = s.phase := rfl
@[simp] theorem State.raise_draws (s : State) (c : FaultCause) (a : Word) : (s.raise c a).draws = s.draws := rfl
@[simp] theorem State.raise_out (s : State) (c : FaultCause) (a : Word) : (s.raise c a).out = s.out := rfl

@[simp] theorem State.cpuReset_target (s : State) : (s.cpuReset).target = s.target := rfl
@[simp] theorem State.cpuReset_v (s : State) : (s.cpuReset).v = Vector.replicate 16 0 := rfl
@[simp] theorem State.cpuReset_i (s : State) : (s.cpuReset).i = 0 := rfl
@[simp] theorem State.cpuReset_pc (s : State) : (s.cpuReset).pc = Params.loadAddress := rfl
@[simp] theorem State.cpuReset_sp (s : State) : (s.cpuReset).sp = 0 := rfl
@[simp] theorem State.cpuReset_stack (s : State) : (s.cpuReset).stack = Vector.replicate 16 0 := rfl
@[simp] theorem State.cpuReset_dt (s : State) : (s.cpuReset).dt = 0 := rfl
@[simp] theorem State.cpuReset_st (s : State) : (s.cpuReset).st = 0 := rfl
@[simp] theorem State.cpuReset_mem (s : State) : (s.cpuReset).mem = s.mem := rfl
@[simp] theorem State.cpuReset_fb (s : State) : (s.cpuReset).fb = s.fb := rfl
@[simp] theorem State.cpuReset_double (s : State) : (s.cpuReset).double = s.double := rfl
@[simp] theorem State.cpuReset_vbl (s : State) : (s.cpuReset).vbl = false := rfl
@[simp] theorem State.cpuReset_kw (s : State) : (s.cpuReset).kw = .idle := rfl
@[simp] theorem State.cpuReset_kwk (s : State) : (s.cpuReset).kwk = 0 := rfl
@[simp] theorem State.cpuReset_fault (s : State) : (s.cpuReset).fault = none := rfl
@[simp] theorem State.cpuReset_keys (s : State) : (s.cpuReset).keys = s.keys := rfl
@[simp] theorem State.cpuReset_lastKey (s : State) : (s.cpuReset).lastKey = s.lastKey := rfl
@[simp] theorem State.cpuReset_exit (s : State) : (s.cpuReset).exit = s.exit := rfl
@[simp] theorem State.cpuReset_toneReq (s : State) : (s.cpuReset).toneReq = s.toneReq := rfl
@[simp] theorem State.cpuReset_tLast (s : State) : (s.cpuReset).tLast = s.tLast := rfl
@[simp] theorem State.cpuReset_credit (s : State) : (s.cpuReset).credit = s.credit := rfl
@[simp] theorem State.cpuReset_phase (s : State) : (s.cpuReset).phase = s.phase := rfl
@[simp] theorem State.cpuReset_draws (s : State) : (s.cpuReset).draws = s.draws := rfl
@[simp] theorem State.cpuReset_out (s : State) : (s.cpuReset).out = s.out := rfl

@[simp] theorem State.setInput_target (s : State) (p : Poll) : (s.setInput p).target = s.target := rfl
@[simp] theorem State.setInput_v (s : State) (p : Poll) : (s.setInput p).v = s.v := rfl
@[simp] theorem State.setInput_i (s : State) (p : Poll) : (s.setInput p).i = s.i := rfl
@[simp] theorem State.setInput_pc (s : State) (p : Poll) : (s.setInput p).pc = s.pc := rfl
@[simp] theorem State.setInput_sp (s : State) (p : Poll) : (s.setInput p).sp = s.sp := rfl
@[simp] theorem State.setInput_stack (s : State) (p : Poll) : (s.setInput p).stack = s.stack := rfl
@[simp] theorem State.setInput_dt (s : State) (p : Poll) : (s.setInput p).dt = s.dt := rfl
@[simp] theorem State.setInput_st (s : State) (p : Poll) : (s.setInput p).st = s.st := rfl
@[simp] theorem State.setInput_mem (s : State) (p : Poll) : (s.setInput p).mem = s.mem := rfl
@[simp] theorem State.setInput_fb (s : State) (p : Poll) : (s.setInput p).fb = s.fb := rfl
@[simp] theorem State.setInput_double (s : State) (p : Poll) : (s.setInput p).double = s.double := rfl
@[simp] theorem State.setInput_vbl (s : State) (p : Poll) : (s.setInput p).vbl = s.vbl := rfl
@[simp] theorem State.setInput_kw (s : State) (p : Poll) : (s.setInput p).kw = s.kw := rfl
@[simp] theorem State.setInput_kwk (s : State) (p : Poll) : (s.setInput p).kwk = s.kwk := rfl
@[simp] theorem State.setInput_fault (s : State) (p : Poll) : (s.setInput p).fault = s.fault := rfl
@[simp] theorem State.setInput_keys (s : State) (p : Poll) : (s.setInput p).keys = p.keys := rfl
@[simp] theorem State.setInput_lastKey (s : State) (p : Poll) : (s.setInput p).lastKey = p.lastKey := rfl
@[simp] theorem State.setInput_exit (s : State) (p : Poll) : (s.setInput p).exit = p.exit := rfl
@[simp] theorem State.setInput_toneReq (s : State) (p : Poll) : (s.setInput p).toneReq = s.toneReq := rfl
@[simp] theorem State.setInput_tLast (s : State) (p : Poll) : (s.setInput p).tLast = s.tLast := rfl
@[simp] theorem State.setInput_credit (s : State) (p : Poll) : (s.setInput p).credit = s.credit := rfl
@[simp] theorem State.setInput_phase (s : State) (p : Poll) : (s.setInput p).phase = s.phase := rfl
@[simp] theorem State.setInput_draws (s : State) (p : Poll) : (s.setInput p).draws = s.draws := rfl
@[simp] theorem State.setInput_out (s : State) (p : Poll) : (s.setInput p).out = s.out := rfl

end Sys2Proof.Machine
end

