-- ==== Sys2Proof/Laws/Display.lean ====
section
/-! SUPPORT. The laws of pixels: what a flip changes, and what a sequence of flips at distinct places does. -/

namespace Sys2Proof.Machine

/-- A pixel outside the 128×64 grid reads as clear. -/
theorem FrameBuffer.pixel_outside {fb : FrameBuffer} {px py : Nat} (h : 128 ≤ px ∨ 64 ≤ py) :
    fb.pixel px py = false := by
  unfold FrameBuffer.pixel
  split
  · exact BitVec.getLsbD_of_ge _ _ (by omega)
  · rfl

theorem FrameBuffer.pixel_blank (px py : Nat) : FrameBuffer.blank.pixel px py = false := by
  simp [FrameBuffer.pixel, FrameBuffer.blank]

/-- Flipping a pixel of the grid changes that pixel and no other. -/
theorem FrameBuffer.pixel_flip {fb : FrameBuffer} {px py : Nat} (hx : px < 128) (hy : py < 64) (qx qy : Nat) :
    (fb.flip px py).pixel qx qy = (fb.pixel qx qy ^^ decide ((qx, qy) = (px, py))) := by
  unfold FrameBuffer.pixel FrameBuffer.flip
  rw [dif_pos hy]
  by_cases hq : qy < 64
  · simp only [hq, dif_pos, Vector.getElem_set, Prod.mk.injEq]
    by_cases hyy : py = qy
    · subst hyy
      simp only [if_true, and_true, BitVec.getLsbD_xor, BitVec.getLsbD_shiftLeft]
      congr 1
      by_cases hxx : qx = px
      · subst hxx; simp [hx]
      · simp only [hxx, decide_false]
        by_cases h1 : qx < px
        · simp [h1]
        · have : ¬(qx - px = 0) := by omega
          simp [this]
    · have : ¬(qy = py) := fun e => hyy e.symm
      simp [hyy, this]
  · have : ¬(qy = py) := by omega
    simp [hq, this]

/-- Two frame buffers with the same pixels are the same. -/
theorem FrameBuffer.ext_pixel {fb fb' : FrameBuffer} (h : ∀ px py, fb.pixel px py = fb'.pixel px py) : fb = fb' := by
  apply Vector.ext
  intro py hy
  apply BitVec.eq_of_getLsbD_eq
  intro px _
  have := h px py
  simpa [FrameBuffer.pixel, hy] using this

/-- A blit is one sequence of single flips (R151). -/
theorem blit_eq_foldl (double : Bool) (fb : FrameBuffer) (ps : List (Nat × Nat)) :
    blit double fb ps = (ps.flatMap (physPixels double)).foldl flipOne (fb, false) := by
  unfold blit
  generalize (fb, false) = acc
  induction ps generalizing acc with
  | nil => rfl
  | cons p ps ih => simp only [List.foldl_cons, List.flatMap_cons, List.foldl_append, plot, ih]

/-- Flips at distinct places of the grid: each of them is flipped once, and the flag says whether one was lit before
(R152). -/
theorem foldl_flipOne {l : List (Nat × Nat)} (hn : l.Nodup) (hr : ∀ p ∈ l, p.1 < 128 ∧ p.2 < 64)
    (acc : FrameBuffer × Bool) :
    (∀ qx qy, (l.foldl flipOne acc).1.pixel qx qy = (acc.1.pixel qx qy ^^ decide ((qx, qy) ∈ l))) ∧
    (l.foldl flipOne acc).2 = (acc.2 || l.any fun p => acc.1.pixel p.1 p.2) := by
  induction l generalizing acc with
  | nil => simp
  | cons p l ih =>
    obtain ⟨px, py⟩ := p
    have hp := hr (px, py) (by simp)
    have hn' := List.nodup_cons.1 hn
    obtain ⟨ih1, ih2⟩ := ih hn'.2 (fun q hq => hr q (by simp [hq])) (flipOne acc (px, py))
    have hflip : ∀ qx qy, (flipOne acc (px, py)).1.pixel qx qy =
        (acc.1.pixel qx qy ^^ decide ((qx, qy) = (px, py))) := fun qx qy =>
      FrameBuffer.pixel_flip hp.1 hp.2 qx qy
    constructor
    · intro qx qy
      rw [List.foldl_cons, ih1, hflip]
      by_cases he : (qx, qy) = (px, py)
      · rw [he]; simp [hn'.1]
      · simp only [List.mem_cons, he, false_or, decide_false, Bool.xor_false]
    · rw [List.foldl_cons, ih2]
      have hany : (l.any fun q => (flipOne acc (px, py)).1.pixel q.1 q.2) = l.any fun q => acc.1.pixel q.1 q.2 := by
        rw [Bool.eq_iff_iff]
        simp only [List.any_eq_true]
        refine exists_congr fun q => and_congr_right fun hq => ?_
        have hne : q ≠ (px, py) := fun e => hn'.1 (e ▸ hq)
        rw [hflip]
        simp [hne]
      rw [hany]
      simp [flipOne, Bool.or_assoc]

end Sys2Proof.Machine
end

