-- ==== Sys2Proof/Laws/Memory.lean ====
section
/-! SUPPORT. The laws of memory: a read after a write, the canonical form, the bounds check. -/

namespace Sys2Proof.Machine

/-! ## The canonical form -/

theorem Memory.wfFrom_cons {lo k : Nat} {b : Byte} {m : Memory} :
    Memory.wfFrom lo ((k, b) :: m) = true ↔
      lo ≤ k ∧ k < Params.memSize ∧ b ≠ Params.initialByte k ∧ Memory.wfFrom (k + 1) m = true := by
  simp [Memory.wfFrom, and_assoc]

theorem Memory.wfFrom_mono {lo lo' : Nat} {m : Memory} (h : Memory.wfFrom lo m = true) (hl : lo' ≤ lo) :
    Memory.wfFrom lo' m = true := by
  cases m with
  | nil => rfl
  | cons c m =>
    obtain ⟨k, b⟩ := c
    rw [Memory.wfFrom_cons] at h ⊢
    exact ⟨hl.trans h.1, h.2⟩

/-- Below its first listed address a canonical memory reads as it did after construction. -/
theorem Memory.get_of_lt_wfFrom {lo a : Nat} {m : Memory} (h : Memory.wfFrom lo m = true) (ha : a < lo) :
    m.get a = Params.initialByte a := by
  induction m generalizing lo with
  | nil => rfl
  | cons c m ih =>
    obtain ⟨k, b⟩ := c
    rw [Memory.wfFrom_cons] at h
    have hk : k ≠ a := by omega
    simp only [Memory.get, hk, if_false]
    exact ih h.2.2.2 (by omega)

theorem Memory.put_wfFrom {lo a : Nat} {b : Byte} {m : Memory} (h : Memory.wfFrom lo m = true) (hl : lo ≤ a)
    (ha : a < Params.memSize) : Memory.wfFrom lo (m.put a b) = true := by
  induction m generalizing lo with
  | nil =>
    simp only [Memory.put]
    split
    · rfl
    · next hb => rw [Memory.wfFrom_cons]; exact ⟨hl, ha, hb, rfl⟩
  | cons c m ih =>
    obtain ⟨k, c⟩ := c
    have h' := Memory.wfFrom_cons.1 h
    simp only [Memory.put]
    split
    · next hlt =>
      split
      · exact h
      · next hb =>
        rw [Memory.wfFrom_cons]
        exact ⟨hl, ha, hb, Memory.wfFrom_cons.2 ⟨hlt, h'.2⟩⟩
    · split
      · next heq =>
        split
        · exact Memory.wfFrom_mono h'.2.2.2 (by omega)
        · next hb => subst heq; rw [Memory.wfFrom_cons]; exact ⟨hl, ha, hb, h'.2.2.2⟩
      · rw [Memory.wfFrom_cons]
        exact ⟨h'.1, h'.2.1, h'.2.2.1, ih h'.2.2.2 (by omega)⟩

/-- A store inside memory keeps the canonical form. -/
theorem Memory.put_wf {a : Nat} {b : Byte} {m : Memory} (h : m.wf = true) (ha : a < Params.memSize) :
    (m.put a b).wf = true := Memory.put_wfFrom h (Nat.zero_le a) ha

/-! ## Reads after writes -/

/-- A write leaves every other address alone. -/
theorem Memory.get_put_ne {a x : Nat} (b : Byte) (m : Memory) (hx : x ≠ a) : (m.put a b).get x = m.get x := by
  induction m with
  | nil =>
    simp only [Memory.put]
    split
    · rfl
    · simp [Memory.get, Ne.symm hx]
  | cons c m ih =>
    obtain ⟨k, c⟩ := c
    simp only [Memory.put]
    split
    · split
      · rfl
      · simp [Memory.get, Ne.symm hx]
    · split
      · next heq =>
        subst heq
        split <;> simp [Memory.get, Ne.symm hx]
      · simp only [Memory.get, ih]

theorem Memory.get_put_same_wfFrom {lo a : Nat} (b : Byte) {m : Memory} (h : Memory.wfFrom lo m = true) :
    (m.put a b).get a = b := by
  induction m generalizing lo with
  | nil =>
    simp only [Memory.put]
    split
    · next hb => simp [Memory.get, hb]
    · simp [Memory.get]
  | cons c m ih =>
    obtain ⟨k, c⟩ := c
    have h' := Memory.wfFrom_cons.1 h
    simp only [Memory.put]
    split
    · next hlt =>
      split
      · next hb =>
        rw [hb]
        exact Memory.get_of_lt_wfFrom (lo := k) (Memory.wfFrom_cons.2 ⟨le_refl k, h'.2⟩) hlt
      · simp [Memory.get]
    · split
      · next heq =>
        subst heq
        split
        · next hb => rw [hb]; exact Memory.get_of_lt_wfFrom h'.2.2.2 (by omega)
        · simp [Memory.get]
      · next hne =>
        have : k ≠ a := Ne.symm hne
        simp only [Memory.get, this, if_false]
        exact ih h'.2.2.2

/-- A read of the address written gives the byte written. -/
theorem Memory.get_put_same {a : Nat} (b : Byte) {m : Memory} (h : m.wf = true) : (m.put a b).get a = b :=
  Memory.get_put_same_wfFrom b h

theorem Memory.ext_wfFrom {lo : Nat} {m m' : Memory} (h : Memory.wfFrom lo m = true)
    (h' : Memory.wfFrom lo m' = true) (hg : ∀ a, m.get a = m'.get a) : m = m' := by
  induction m generalizing lo m' with
  | nil =>
    cases m' with
    | nil => rfl
    | cons c m' =>
      obtain ⟨k, b⟩ := c
      have := hg k
      simp only [Memory.get, if_true] at this
      exact absurd this.symm (Memory.wfFrom_cons.1 h').2.2.1
  | cons c m ih =>
    obtain ⟨k, b⟩ := c
    have hc := Memory.wfFrom_cons.1 h
    cases m' with
    | nil =>
      have := hg k
      simp only [Memory.get, if_true] at this
      exact absurd this hc.2.2.1
    | cons c' m' =>
      obtain ⟨k', b'⟩ := c'
      have hc' := Memory.wfFrom_cons.1 h'
      have hk : k = k' := by
        rcases lt_trichotomy k k' with hlt | heq | hlt
        · have := hg k
          rw [Memory.get_of_lt_wfFrom (lo := k') (Memory.wfFrom_cons.2 ⟨le_refl _, hc'.2⟩) hlt] at this
          simp only [Memory.get, if_true] at this
          exact absurd this hc.2.2.1
        · exact heq
        · have := hg k'
          rw [Memory.get_of_lt_wfFrom (lo := k) (Memory.wfFrom_cons.2 ⟨le_refl _, hc.2⟩) hlt] at this
          simp only [Memory.get, if_true] at this
          exact absurd this.symm hc'.2.2.1
      subst hk
      have hb : b = b' := by simpa [Memory.get] using hg k
      subst hb
      congr 1
      refine ih hc.2.2.2 hc'.2.2.2 fun a => ?_
      by_cases ha : k = a
      · subst ha
        rw [Memory.get_of_lt_wfFrom hc.2.2.2 (by omega), Memory.get_of_lt_wfFrom hc'.2.2.2 (by omega)]
      · simpa [Memory.get, ha] using hg a

/-- Two canonical memories that read the same everywhere are equal data. -/
theorem Memory.ext_of_wf {m m' : Memory} (h : m.wf = true) (h' : m'.wf = true) (hg : ∀ a, m.get a = m'.get a) :
    m = m' := Memory.ext_wfFrom h h' hg

/-! ## The bounds check -/

theorem inMem_iff {a : Word} : inMem a = true ↔ a.toNat < 4096 := by
  unfold inMem
  exact decide_eq_true_iff

theorem inMem_eq_false_iff {a : Word} : inMem a = false ↔ 4096 ≤ a.toNat := by
  rw [← Bool.not_eq_true, inMem_iff, Nat.not_lt]

theorem succ_toNat {a : Word} (h : a.toNat < 65535) : (a + 1).toNat = a.toNat + 1 := by
  have h1 : (1 : Word).toNat = 1 := rfl
  rw [BitVec.toNat_add, h1]
  omega

theorem firstBad_eq_none_iff {a : Word} {len : Nat} :
    firstBad a len = none ↔ ∀ k < len, (addrAt a k).toNat < 4096 := by
  simp [firstBad, inMem_iff]

theorem addrAt_toNat {a : Word} {k : Nat} (h : a.toNat + k < 65536) : (addrAt a k).toNat = a.toNat + k := by
  have : k % 65536 = k := Nat.mod_eq_of_lt (by omega)
  simp only [addrAt, BitVec.toNat_add, BitVec.toNat_ofNat]
  omega

theorem addrAt_zero (a : Word) : addrAt a 0 = a := by simp [addrAt]

/-- The bounds check of an access of at least one byte, in closed form: it passes iff the access ends inside memory, and
otherwise names 0x1000, or the start address where that one is already outside. -/
theorem firstBad_eq {a : Word} {len : Nat} (h0 : 0 < len) :
    firstBad a len =
      if a.toNat + len ≤ 4096 then none else some (if a.toNat < 4096 then 0x1000 else a) := by
  split
  · next h =>
    rw [firstBad_eq_none_iff]
    intro k hk
    rw [addrAt_toNat (by omega)]
    omega
  · next h =>
    split
    · next ha =>
      unfold firstBad
      rw [List.find?_eq_some_iff_getElem]
      refine ⟨by decide, 4096 - a.toNat, by simp; omega, ?_, ?_⟩
      · simp only [List.getElem_map, List.getElem_range]
        apply BitVec.eq_of_toNat_eq
        rw [addrAt_toNat (by omega)]
        have : (0x1000 : Word).toNat = 4096 := by decide
        omega
      · intro j hj
        simp only [List.getElem_map, List.getElem_range, Bool.not_not, inMem_iff]
        rw [addrAt_toNat (by omega)]
        omega
    · next ha =>
      unfold firstBad
      rw [List.find?_eq_some_iff_getElem]
      refine ⟨by simpa [inMem_eq_false_iff] using ha, 0, by simpa using h0, ?_, ?_⟩
      · simp [addrAt_zero]
      · intro j hj; omega

theorem firstBad_zero (a : Word) : firstBad a 0 = none := rfl

theorem firstBad_eq_none_of_le {a : Word} {len : Nat} (h : a.toNat + len ≤ 4096) : firstBad a len = none := by
  rw [firstBad_eq_none_iff]
  intro k hk
  rw [addrAt_toNat (by omega)]
  omega

/-- A bad address reported is outside memory. -/
theorem inMem_of_firstBad {a b : Word} {len : Nat} (h : firstBad a len = some b) : inMem b = false := by
  have := List.find?_some h
  simpa using this

/-! ## Ranges of bytes -/

theorem writeBytes_wf {bs : List Byte} {m : Memory} {a : Word} (h : m.wf = true)
    (ha : a.toNat + bs.length ≤ 4096) : (writeBytes m a bs).wf = true := by
  induction bs generalizing m a with
  | nil => exact h
  | cons b bs ih =>
    simp only [List.length_cons] at ha
    simp only [writeBytes]
    refine ih (Memory.put_wf h (by simp only [Params.memSize]; omega)) ?_
    rw [succ_toNat (by omega)]
    omega

/-- What a range of stored bytes reads as: the stored byte inside the range, the old byte everywhere else. -/
theorem get_writeBytes {bs : List Byte} {m : Memory} {a : Word} (x : Nat) (h : m.wf = true)
    (ha : a.toNat + bs.length ≤ 4096) :
    (writeBytes m a bs).get x =
      if a.toNat ≤ x ∧ x < a.toNat + bs.length then bs.getD (x - a.toNat) 0 else m.get x := by
  induction bs generalizing m a with
  | nil => simp [writeBytes]
  | cons b bs ih =>
    simp only [List.length_cons] at ha
    simp only [writeBytes]
    have hwf : (m.put a.toNat b).wf = true := Memory.put_wf h (by simp only [Params.memSize]; omega)
    have ha1 : (a + 1).toNat = a.toNat + 1 := succ_toNat (by omega)
    rw [ih hwf (by omega), ha1]
    by_cases hx : x = a.toNat
    · subst hx
      simp [Memory.get_put_same b h]
    · rw [Memory.get_put_ne b m hx]
      by_cases hr : a.toNat + 1 ≤ x ∧ x < a.toNat + 1 + bs.length
      · have h2 : a.toNat ≤ x ∧ x < a.toNat + (bs.length + 1) := by omega
        rw [if_pos hr]
        simp only [List.length_cons]
        rw [if_pos h2]
        have : x - a.toNat = (x - (a.toNat + 1)) + 1 := by omega
        rw [this]
        rfl
      · have h2 : ¬(a.toNat ≤ x ∧ x < a.toNat + (bs.length + 1)) := by omega
        rw [if_neg hr]
        simp only [List.length_cons]
        rw [if_neg h2]

/-- Bytes outside the stored range read as before, whatever the memory. -/
theorem get_writeBytes_outside {bs : List Byte} {m : Memory} {a : Word} {x : Nat}
    (ha : a.toNat + bs.length ≤ 4096) (hx : ¬(a.toNat ≤ x ∧ x < a.toNat + bs.length)) :
    (writeBytes m a bs).get x = m.get x := by
  induction bs generalizing m a with
  | nil => rfl
  | cons b bs ih =>
    simp only [List.length_cons] at ha hx
    have ha1 : (a + 1).toNat = a.toNat + 1 := succ_toNat (by omega)
    simp only [writeBytes]
    rw [ih (by omega) (by omega)]
    exact Memory.get_put_ne b m (by omega)

theorem readBytes_getD {m : Memory} {a : Word} {len k : Nat} (hk : k < len) :
    (readBytes m a len).getD k 0 = m.get (addrAt a k).toNat := by
  simp [readBytes, hk]

@[simp] theorem readBytes_length (m : Memory) (a : Word) (len : Nat) : (readBytes m a len).length = len := by
  simp [readBytes]

end Sys2Proof.Machine
end

