-- ==== Sys2Proof/Laws/Ops.lean ====
section
/-! SUPPORT. One lemma per shared operation: everything it can do, for the proofs to cite instead of unfolding it. -/

namespace Sys2Proof.Machine

/-! ## Registers -/

/-- A write to one register is what that register reads as; the others read as before. -/
theorem State.getV_setV (s : State) (x r : Reg) (b : Byte) :
    (s.setV x b).getV r = if x = r then b else s.getV r := by
  simp only [State.getV, State.setV_v, Vector.getElem_set]
  split <;> rename_i h
  · rw [if_pos (Fin.ext h)]
  · rw [if_neg (fun e => h (congrArg Fin.val e))]

theorem State.getV_setVF (s : State) (r : Reg) (b : Byte) :
    (s.setVF b).getV r = if (15 : Reg) = r then b else s.getV r := State.getV_setV s 15 r b

/-- Reading a register depends on the register file alone. -/
theorem State.getV_congr {s t : State} (h : t.v = s.v) (r : Reg) : t.getV r = s.getV r := by
  simp only [State.getV, h]

/-! ## The shapes of the meanings -/

theorem writeReg_eq (x : Reg) (r : Byte) (s : State) :
    writeReg x r s = .next { s with v := s.v.set x.val r, pc := s.pc + 2 } := rfl

theorem writeRegFlag_eq (x : Reg) (r f : Byte) (s : State) :
    writeRegFlag x r f s = .next { s with v := (s.v.set x.val r).set 15 f, pc := s.pc + 2 } := rfl

/-- The VF reset of the logic operations is on at every target (00_scope.md R3). -/
theorem resetsVf_all (t : Target) : t.quirks.resetsVfOnLogicOps = true := by cases t <;> rfl

/-- The vblank wait is on at every target (R3). -/
theorem vblankWait_all (t : Target) : t.quirks.vblankWait = true := by cases t <;> rfl

theorem shiftCopiesY_iff (t : Target) : t.quirks.shiftCopiesY = true ↔ t = .chip8 := by cases t <;> decide

theorem saveLoad_iff (t : Target) : t.quirks.saveLoadIncrementsIByNPlusOne = true ↔ t = .chip8 := by
  cases t <;> decide

theorem jumpOffset_iff (t : Target) : t.quirks.jumpOffsetUsesVx = true ↔ t ≠ .chip8 := by cases t <;> decide

theorem hasHires_iff (t : Target) : t.quirks.hasHiresOps = true ↔ t = .superchip10 := by cases t <;> decide

theorem bigSprite_iff (t : Target) : t.quirks.bigSpriteOnN0 = true ↔ t = .superchip10 := by cases t <;> decide

theorem writeRegLogic_eq (x : Reg) (r : Byte) (s : State) :
    writeRegLogic x r s = .next { s with v := (s.v.set x.val r).set 15 0, pc := s.pc + 2 } := by
  simp only [writeRegLogic, State.q, resetsVf_all, if_true, writeRegFlag_eq, logicFlag]

/-- What a checked access can do: fault with the first bad address, or go on. -/
theorem checked_next {s t : State} {len : Nat} {access : Res} (h : checked s len access = .next t) :
    (∃ a, firstBad s.i len = some a ∧ t = s.raise .memBounds a) ∨ (firstBad s.i len = none ∧ access = .next t) := by
  unfold checked at h
  split at h
  · next a ha => exact .inl ⟨a, ha, by simpa using h.symm⟩
  · next ha => exact .inr ⟨ha, h⟩

theorem checked_of_fits {s : State} {len : Nat} (access : Res) (h : s.i.toNat + len ≤ 4096) :
    checked s len access = access := by
  simp only [checked, firstBad_eq_none_of_le h]

theorem checked_of_out {s : State} {len : Nat} (access : Res) (h0 : 0 < len) (h : 4096 < s.i.toNat + len) :
    checked s len access = .next (s.raise .memBounds (if s.i.toNat < 4096 then 0x1000 else s.i)) := by
  simp only [checked, firstBad_eq h0, if_neg (Nat.not_le.2 h)]

/-- The four things FX0A can do (45_timers_keys.md R162). -/
theorem keyWaitWith_cases (click : Byte) (x : Reg) (s : State) :
    (s.kw = .idle ∧ s.lastKey = none ∧ keyWaitWith click x s = .next s) ∨
    (∃ k, s.kw = .idle ∧ s.lastKey = some k ∧
      keyWaitWith click x s = .next (((s.setV x (keyByte k)).setSt click).setKeyWait .held k)) ∨
    (s.kw = .held ∧ s.keyDown s.kwk = true ∧ keyWaitWith click x s = .next s) ∨
    (s.kw = .held ∧ s.keyDown s.kwk = false ∧
      keyWaitWith click x s = .next (s.setKeyWait .idle s.kwk).advance) := by
  unfold keyWaitWith
  cases hk : s.kw with
  | idle =>
    cases hl : s.lastKey with
    | none => exact .inl ⟨rfl, rfl, rfl⟩
    | some k => exact .inr (.inl ⟨k, rfl, rfl, rfl⟩)
  | held =>
    cases hd : s.keyDown s.kwk with
    | true => exact .inr (.inr (.inl ⟨rfl, rfl, by simp⟩))
    | false => exact .inr (.inr (.inr ⟨rfl, rfl, by simp⟩))

/-- Taking the key answer uses up at most one draw and changes nothing else. -/
theorem afterKeyAnswer_eq (s : State) (x : Reg) :
    afterKeyAnswer s x = { s with draws := s.draws + if (s.getV x).toNat < 16 then 0 else 1 } := by
  unfold afterKeyAnswer keyOfByte
  split <;> rename_i h <;> split at h <;> simp_all [State.drawn]

theorem keyAnswer_low {s : State} {x : Reg} {k : Key} (h : (s.getV x).toNat = k.val) :
    keyAnswer s x = s.keys[k.val] := by
  have hk : keyOfByte (s.getV x) = some k := by
    unfold keyOfByte
    rw [dif_pos (by omega)]
    simp [h]
  simp [keyAnswer, hk, State.keyDown]

theorem keyAnswer_high {s : State} {x : Reg} (h : 15 < (s.getV x).toNat) :
    keyAnswer s x = Config.keyDraw s.draws (s.getV x) := by
  have hk : keyOfByte (s.getV x) = none := by
    unfold keyOfByte
    rw [dif_neg (by omega)]
  simp [keyAnswer, hk]

/-! ## Ranges of registers and memory -/

/-- Memory lists nothing at construction, which is the canonical form. -/
theorem construct_mem_wf (t : Target) : (State.construct t).mem.wf = true := rfl

theorem fits_of_firstBad {a : Word} {len : Nat} (h0 : 0 < len) (h : firstBad a len = none) :
    a.toNat + len ≤ 4096 := by
  rw [firstBad_eq h0] at h
  by_contra hh
  rw [if_neg hh] at h
  cases h

theorem savedRegs_length (s : State) (x : Reg) : (savedRegs s x).length = x.val + 1 := by
  simp [savedRegs]

theorem savedRegs_getD (s : State) (x k : Reg) (h : k ≤ x) : (savedRegs s x).getD k.val 0 = s.getV k := by
  have h' : k.val ≤ x.val := h
  have : k.val < x.val + 1 := by omega
  simp [savedRegs, this, State.getV]

theorem loadedRegs_getElem (s : State) (x k : Reg) :
    (loadedRegs s x)[k.val] = if k ≤ x then s.mem.get (addrAt s.i k.val).toNat else s.getV k := by
  simp only [loadedRegs, Vector.getElem_ofFn]
  rfl

/-- The final `I` of FX55 and FX65 by target. -/
theorem postIncrementI_eq (s : State) (x : Reg) :
    postIncrementI s x = BitVec.ofNat 16 (s.i.toNat + x.val + if s.target = .chip8 then 1 else 0) := by
  unfold postIncrementI State.q
  cases s.target <;> simp [Target.quirks, addrAt, BitVec.toNat_eq]
  omega

theorem tickDown_toNat (b : Byte) : (tickDown b).toNat = b.toNat - 1 := by
  unfold tickDown
  split <;> bv_omega

/-- The sound clock touches the tone request only (60_exceptions.md R187). -/
theorem clockSound_eq (s : State) :
    clockSound s = { s with toneReq := s.toneReq || decide (0 < s.st.toNat) } := by
  unfold clockSound
  split <;> rename_i h <;> simp [h]

/-- The bus clock touches the input snapshot, the tone request and the list of host events only (60_exceptions.md R189). -/
theorem clockBus_frame (p : Poll) (s : State) :
    ∃ evs, clockBus p s =
      { s with keys := p.keys, lastKey := p.lastKey, exit := p.exit, toneReq := false, out := evs ++ s.out } := by
  refine ⟨[.audio (!s.toneReq), .screen s.fb s.q.physWidth s.q.physHeight], ?_⟩
  simp only [clockBus, State.setInput, State.emit, State.q, List.cons_append, List.nil_append]

/-- An instruction that answers a next state left memory alone, or stored its bytes from `I`, inside memory. -/
theorem exec_mem {i : Instr} {s t : State} (h : exec i s = .next t) :
    t.mem = s.mem ∨
      ∃ bs, t.mem = writeBytes s.mem s.i bs ∧ bs.length = storedLen i ∧ s.i.toNat + bs.length ≤ 4096 := by
  cases i
  case ret =>
    simp only [exec, execRet] at h
    split at h
    · cases h; exact .inl rfl
    · split at h <;> cases h; exact .inl rfl
  case call nnn =>
    simp only [exec, execCall] at h
    split at h <;> cases h <;> exact .inl rfl
  case ldVxK x =>
    obtain ⟨_, _, e⟩ | ⟨k, _, _, e⟩ | ⟨_, _, e⟩ | ⟨_, _, e⟩ := keyWaitWith_cases Config.keyClickSt x s <;>
      simp only [exec, execLdVxK, e] at h <;> cases h <;> exact .inl rfl
  case drw x y n =>
    rcases checked_next h with ⟨a, _, rfl⟩ | ⟨_, e⟩
    · exact .inl rfl
    · cases e; exact .inl rfl
  case loadRegs x =>
    rcases checked_next h with ⟨a, _, rfl⟩ | ⟨_, e⟩
    · exact .inl rfl
    · cases e; exact .inl rfl
  case ldB x =>
    rcases checked_next h with ⟨a, _, rfl⟩ | ⟨hf, e⟩
    · exact .inl rfl
    · cases e; exact .inr ⟨_, rfl, rfl, fits_of_firstBad (Nat.succ_pos _) hf⟩
  case saveRegs x =>
    rcases checked_next h with ⟨a, _, rfl⟩ | ⟨hf, e⟩
    · exact .inl rfl
    · cases e
      exact .inr ⟨_, rfl, savedRegs_length s x, by rw [savedRegs_length]; exact fits_of_firstBad (by omega) hf⟩
  case skp x => cases h; rw [afterKeyAnswer_eq]; exact .inl rfl
  case sknp x => cases h; rw [afterKeyAnswer_eq]; exact .inl rfl
  all_goals
    simp only [exec, execOrReg, execAndReg, execXorReg, writeRegLogic_eq, Host.Outcome.next.injEq] at h
    cases h
    exact .inl rfl

/-! ## The wall clock -/

/-- The wall clock never runs back (60_exceptions.md R206). -/
theorem Config.now_mono {j k : Nat} (h : j ≤ k) : Config.now j ≤ Config.now k := by
  induction h with
  | refl => exact le_rfl
  | @step m _ ih => exact ih.trans (le_add_of_nonneg_right (Config.clockStep m).2)

/-! ## The cycle, the slot, the step -/

/-- The four things a cycle can do (40_execution_cycle.md R93). -/
theorem clockSys_cases (s : State) :
    (s.suppressed = true ∧ clockSys s = .next s) ∨
    (∃ a, s.suppressed = false ∧ firstBad s.pc 2 = some a ∧ clockSys s = .next (s.raise .memBounds a)) ∨
    (∃ i, s.ready ∧ decode s.target (fetchWord s) = .ok i ∧ clockSys s = exec i s) ∨
    (∃ e, s.ready ∧ decode s.target (fetchWord s) = .error e ∧ clockSys s = execInvalid (fetchWord s) s) := by
  cases hs : s.suppressed with
  | true => exact .inl ⟨rfl, by simp [clockSys, hs]⟩
  | false =>
    refine .inr ?_
    cases hf : firstBad s.pc 2 with
    | some a => exact .inl ⟨a, rfl, rfl, by simp [clockSys, hs, hf]⟩
    | none =>
      cases hd : decode s.target (fetchWord s) with
      | ok i => exact .inr (.inl ⟨i, ⟨hs, hf⟩, rfl, by simp [clockSys, hs, hf, execWord, hd]⟩)
      | error e => exact .inr (.inr ⟨e, ⟨hs, hf⟩, rfl, by simp [clockSys, hs, hf, execWord, hd]⟩)

/-- A slot that answers a next state ran a cycle, and then ended the loop or the slot. -/
theorem slot_next {n : Nat} {u : Rat} {s t : State} (h : slot n u s = .next t) :
    ∃ s1, clockSys s = .next s1 ∧ t = afterCycle n u s1 := by
  unfold slot at h
  split at h
  · next s1 hs => exact ⟨s1, hs, by simpa using h.symm⟩
  · simp at h
  · simp at h

/-- A load that answers a next state wrote a ROM of admissible length. -/
theorem loadRom_next {rom : Option (List Byte)} {s t : State} (h : loadRom rom s = .next t) :
    ∃ r, rom = some r ∧ 0 < r.length ∧ r.length ≤ 3584 ∧
      t = (s.setMem (writeBytes s.mem Params.loadAddress r)).goto .start := by
  unfold loadRom at h
  split at h
  · simp at h
  · next r =>
    split at h
    · simp at h
    · split at h
      · simp at h
      · next h0 h1 =>
        simp only [Params.maxRom] at h1
        exact ⟨r, rfl, by omega, by omega, by simpa using h.symm⟩

/-- Everything a step can do, by the phase it starts in. -/
theorem step_cases {s t : State} (h : step s = .next t) :
    (s.phase = .load ∧ loadRom Config.rom s = .next t) ∨
    (s.phase = .start ∧ t = (enterRun (Config.now s.draws) s).drawn) ∨
    (s.phase = .wait ∧ t = betweenFrames s) ∨
    (∃ n u, s.phase = .frame (n + 1) u ∧ slot n u s = .next t) ∨
    (∃ u, s.phase = .frame 0 u ∧ t = (clockBus (Config.poll s.draws) s).drawn.goto (.tick u)) ∨
    (∃ u, s.phase = .tick u ∧ t = endFrame u s) ∨
    (∃ w, s.phase = .stopped w ∧ t = afterStop s) := by
  unfold step schedule at h
  split at h
  · next hp => exact .inl ⟨hp, h⟩
  · next hp => exact .inr (.inl ⟨hp, by simpa using h.symm⟩)
  · next hp => exact .inr (.inr (.inl ⟨hp, by simpa using h.symm⟩))
  · next n u hp => exact .inr (.inr (.inr (.inl ⟨n, u, hp, h⟩)))
  · next u hp => exact .inr (.inr (.inr (.inr (.inl ⟨u, hp, by simpa using h.symm⟩))))
  · next u hp => exact .inr (.inr (.inr (.inr (.inr (.inl ⟨u, hp, by simpa using h.symm⟩)))))
  · next w hp => exact .inr (.inr (.inr (.inr (.inr (.inr ⟨w, hp, by simpa using h.symm⟩)))))

end Sys2Proof.Machine
end

