-- ==== Sys2Proof/Laws/PerInstr.lean ====
section
/-! SUPPORT. The family EncodeMatchesRow: each instruction's word is a word of its own row of 30_encoding.md R84. -/

namespace Sys2Proof.Laws

/-- A word of the FA format meets the mask 0xF000 with its high nibble. -/
theorem encFA_mask (h : BitVec 4) (nnn : BitVec 12) : encFA h nnn &&& 0xF000 = h ++ 0#12 := by
  show (h ++ nnn) &&& (BitVec.allOnes 4 ++ 0#12) = _
  rw [BitVec.and_append, BitVec.and_allOnes, BitVec.and_zero]

/-- A word of the FI format meets the mask 0xF000 with its high nibble. -/
theorem encFI_mask (h : BitVec 4) (x : Reg) (nn : Byte) : encFI h x nn &&& 0xF000 = h ++ 0#12 := by
  show (h ++ nibble x ++ nn) &&& (BitVec.allOnes 4 ++ 0#4 ++ 0#8) = _
  simp only [BitVec.and_append, BitVec.and_allOnes, BitVec.and_zero]
  grind

/-- A word of the FS format meets the mask 0xF0FF with its high nibble and its sub-opcode byte. -/
theorem encFS_mask (h : BitVec 4) (x : Reg) (nn : Byte) :
    encFI h x nn &&& 0xF0FF = h ++ 0#4 ++ nn := by
  show (h ++ nibble x ++ nn) &&& (BitVec.allOnes 4 ++ 0#4 ++ BitVec.allOnes 8) = _
  simp only [BitVec.and_append, BitVec.and_allOnes, BitVec.and_zero]

/-- A word of the FR format meets the mask 0xF00F with its high nibble and its sub-opcode. -/
theorem encFR_mask (h : BitVec 4) (x y : Reg) (n : BitVec 4) :
    encFR h x y n &&& 0xF00F = h ++ 0#8 ++ n := by
  show (h ++ nibble x ++ nibble y ++ n) &&&
    (BitVec.allOnes 4 ++ 0#4 ++ 0#4 ++ BitVec.allOnes 4 : BitVec 16) = _
  simp only [BitVec.and_append, BitVec.and_allOnes, BitVec.and_zero]
  grind

/-- A word of the FD format meets the mask 0xF000 with its high nibble. -/
theorem encFD_mask (h : BitVec 4) (x y : Reg) (n : BitVec 4) :
    encFR h x y n &&& 0xF000 = h ++ 0#12 := by
  show (h ++ nibble x ++ nibble y ++ n) &&&
    (BitVec.allOnes 4 ++ 0#4 ++ 0#4 ++ 0#4 : BitVec 16) = _
  simp only [BitVec.and_append, BitVec.and_allOnes, BitVec.and_zero]
  grind

namespace EncodeMatchesRow

/-- The word of `i` has the fixed bits of the row of `i`. -/
def Statement (i : Instr) : Prop := encode i &&& i.row.mask = i.row.pattern

theorem cls : Statement .cls := by unfold Statement; decide
theorem ret : Statement .ret := by unfold Statement; decide
theorem low : Statement .low := by unfold Statement; decide
theorem high : Statement .high := by unfold Statement; decide
theorem jp (nnn : BitVec 12) : Statement (.jp nnn) := encFA_mask _ _
theorem call (nnn : BitVec 12) : Statement (.call nnn) := encFA_mask _ _
theorem seImm (x : Reg) (nn : Byte) : Statement (.seImm x nn) := encFI_mask _ _ _
theorem sneImm (x : Reg) (nn : Byte) : Statement (.sneImm x nn) := encFI_mask _ _ _
theorem seReg (x y : Reg) : Statement (.seReg x y) := encFR_mask _ _ _ _
theorem sneReg (x y : Reg) : Statement (.sneReg x y) := encFR_mask _ _ _ _
theorem ldImm (x : Reg) (nn : Byte) : Statement (.ldImm x nn) := encFI_mask _ _ _
theorem addImm (x : Reg) (nn : Byte) : Statement (.addImm x nn) := encFI_mask _ _ _
theorem ldReg (x y : Reg) : Statement (.ldReg x y) := encFR_mask _ _ _ _
theorem orReg (x y : Reg) : Statement (.orReg x y) := encFR_mask _ _ _ _
theorem andReg (x y : Reg) : Statement (.andReg x y) := encFR_mask _ _ _ _
theorem xorReg (x y : Reg) : Statement (.xorReg x y) := encFR_mask _ _ _ _
theorem addReg (x y : Reg) : Statement (.addReg x y) := encFR_mask _ _ _ _
theorem subReg (x y : Reg) : Statement (.subReg x y) := encFR_mask _ _ _ _
theorem shrReg (x y : Reg) : Statement (.shrReg x y) := encFR_mask _ _ _ _
theorem subnReg (x y : Reg) : Statement (.subnReg x y) := encFR_mask _ _ _ _
theorem shlReg (x y : Reg) : Statement (.shlReg x y) := encFR_mask _ _ _ _
theorem ldI (nnn : BitVec 12) : Statement (.ldI nnn) := encFA_mask _ _
theorem jpV0 (nnn : BitVec 12) : Statement (.jpV0 nnn) := encFA_mask _ _
theorem rnd (x : Reg) (nn : Byte) : Statement (.rnd x nn) := encFI_mask _ _ _
theorem drw (x y : Reg) (n : BitVec 4) : Statement (.drw x y n) := encFD_mask _ _ _ _
theorem skp (x : Reg) : Statement (.skp x) := encFS_mask _ _ _
theorem sknp (x : Reg) : Statement (.sknp x) := encFS_mask _ _ _
theorem ldVxDt (x : Reg) : Statement (.ldVxDt x) := encFS_mask _ _ _
theorem ldVxK (x : Reg) : Statement (.ldVxK x) := encFS_mask _ _ _
theorem ldDtVx (x : Reg) : Statement (.ldDtVx x) := encFS_mask _ _ _
theorem ldStVx (x : Reg) : Statement (.ldStVx x) := encFS_mask _ _ _
theorem addI (x : Reg) : Statement (.addI x) := encFS_mask _ _ _
theorem ldF (x : Reg) : Statement (.ldF x) := encFS_mask _ _ _
theorem ldB (x : Reg) : Statement (.ldB x) := encFS_mask _ _ _
theorem saveRegs (x : Reg) : Statement (.saveRegs x) := encFS_mask _ _ _
theorem loadRegs (x : Reg) : Statement (.loadRegs x) := encFS_mask _ _ _

end EncodeMatchesRow

end Sys2Proof.Laws
end

