-- ==== Sys2Proof/Tests/Slice0.lean ====
section
/-! SUPPORT. The model's own tests: words written out bit by bit from 30_encoding.md, one small step each with the
results of 95_test_vectors.md (its row ids stand beside the theorems), and for every statement with hypotheses a
concrete state that meets them. -/

namespace Sys2Proof.Tests

open Sys2Proof.Machine

/-! ## Helpers -/

/-- A register file, zero but for the listed registers. -/
def regs (l : List (Nat × Byte)) : Vector Byte 16 :=
  Vector.ofFn fun k => ((l.find? fun p => p.1 == k.val).map (·.2)).getD 0

/-- The state of 95_test_vectors.md on a target, with the listed registers. -/
def on (t : Target) (l : List (Nat × Byte)) : State := { State.construct t with v := regs l }

/-- The next state, if that is what came out. -/
def got : Res → Option State
  | .next s => some s
  | .fault _ => none
  | .refused _ => none

/-- A field of the next state. -/
def out {α : Type} (r : Res) (f : State → α) : Option α := (got r).map f

/-- `V[k]` after an instruction. -/
def vOut (r : Res) (k : Reg) : Option Byte := out r fun s => s.getV k

/-- A state in a cycle slot with a word at PC. -/
def slotState (t : Target) (pc : Word) (bytes : List Byte) : State :=
  { State.construct t with pc := pc, mem := writeBytes [] pc bytes, phase := .frame 1 0 }

/-! ## The one check of WellFormed (30_encoding.md R79) -/

theorem test_low_ill_formed_on_chip8 : Instr.wellFormed .chip8 .low = false := by decide
theorem test_low_ill_formed_on_chip48 : Instr.wellFormed .chip48 .low = false := by decide
theorem test_high_ill_formed_on_chip8 : Instr.wellFormed .chip8 .high = false := by decide
theorem test_high_ill_formed_on_chip48 : Instr.wellFormed .chip48 .high = false := by decide
theorem test_low_high_well_formed_on_superchip10 :
    Instr.wellFormed .superchip10 .low = true ∧ Instr.wellFormed .superchip10 .high = true := by decide

/-! ## Decoding: one word of every constructor, its fields laid out as in 30_encoding.md R75 and R84 -/

theorem test_decode_fixed_words :
    decode .superchip10 0b0000000011100000 = .ok .cls ∧ decode .superchip10 0b0000000011101110 = .ok .ret ∧
    decode .superchip10 0b0000000011111110 = .ok .low ∧ decode .superchip10 0b0000000011111111 = .ok .high := by
  decide

theorem test_decode_jumps_and_skips :
    decode .chip8 0b0001101010111100 = .ok (.jp 0xABC) ∧ decode .chip8 0b0010010000000000 = .ok (.call 0x400) ∧
    decode .chip8 0b1011001000010000 = .ok (.jpV0 0x210) ∧
    decode .chip8 0b0011001101000010 = .ok (.seImm 3 0x42) ∧
    decode .chip8 0b0100001101000010 = .ok (.sneImm 3 0x42) ∧
    decode .chip8 0b0101000100100000 = .ok (.seReg 1 2) ∧
    decode .chip8 0b1001101010110000 = .ok (.sneReg 0xA 0xB) := by decide

theorem test_decode_register_loads :
    decode .chip8 0b0110101000111100 = .ok (.ldImm 0xA 0x3C) ∧
    decode .chip8 0b0111001100000001 = .ok (.addImm 3 0x01) ∧
    decode .chip8 0b1000000101000000 = .ok (.ldReg 1 4) ∧
    decode .chip8 0b1100010000001111 = .ok (.rnd 4 0x0F) := by decide

theorem test_decode_arithmetic :
    decode .chip8 0b1000000100100001 = .ok (.orReg 1 2) ∧ decode .chip8 0b1000000100100010 = .ok (.andReg 1 2) ∧
    decode .chip8 0b1000000100100011 = .ok (.xorReg 1 2) ∧ decode .chip8 0b1000000100100100 = .ok (.addReg 1 2) ∧
    decode .chip8 0b1000000100100101 = .ok (.subReg 1 2) ∧ decode .chip8 0b1000111100000110 = .ok (.shrReg 15 0) ∧
    decode .chip8 0b1000000100100111 = .ok (.subnReg 1 2) ∧
    decode .chip8 0b1000111100011110 = .ok (.shlReg 15 1) := by decide

theorem test_decode_index_and_memory :
    decode .chip8 0b1010001011110000 = .ok (.ldI 0x2F0) ∧ decode .chip8 0b1111001100011110 = .ok (.addI 3) ∧
    decode .chip8 0b1111000000101001 = .ok (.ldF 0) ∧ decode .chip8 0b1111000000110011 = .ok (.ldB 0) ∧
    decode .chip8 0b1111001001010101 = .ok (.saveRegs 2) ∧
    decode .chip8 0b1111111101100101 = .ok (.loadRegs 15) := by decide

theorem test_decode_draw_keys_timers :
    decode .chip8 0b1101000100100101 = .ok (.drw 1 2 5) ∧ decode .chip8 0b1110001010011110 = .ok (.skp 2) ∧
    decode .chip8 0b1110001010100001 = .ok (.sknp 2) ∧ decode .chip8 0b1111001100000111 = .ok (.ldVxDt 3) ∧
    decode .chip8 0b1111010000001010 = .ok (.ldVxK 4) ∧ decode .chip8 0b1111001100010101 = .ok (.ldDtVx 3) ∧
    decode .chip8 0b1111000000011000 = .ok (.ldStVx 0) := by decide

/-- 95_test_vectors.md 2.1: the words that are Invalid. -/
theorem test_decode_invalid :
    decode .chip8 0x00FE = .error .notOnTarget ∧ decode .chip48 0x00FF = .error .notOnTarget ∧
    decode .superchip10 0x00FD = .error .zeroFamily ∧ decode .chip8 0x0123 = .error .zeroFamily ∧
    decode .chip8 0x5121 = .error .fiveFamily ∧ decode .chip8 0x9AB8 = .error .nineFamily ∧
    decode .chip8 0x8008 = .error .eightFamily ∧ decode .chip8 0x800F = .error .eightFamily ∧
    decode .chip8 0xE0FF = .error .eFamily ∧ decode .chip8 0xF0FF = .error .fFamily ∧
    decode .superchip10 0xF030 = .error .fFamily := by decide

/-- The high byte comes first in memory (30_encoding.md R73), and a single byte is no word. -/
theorem test_decode_bytes :
    decodeBytes .chip8 [0x1A, 0xBC, 0x00] = .ok (.jp 0xABC, [0x00]) ∧
    decodeBytes .chip8 [0x1A] = .error .tooShort := by decide

theorem test_table_words :
    decodeTableWord 16 0xD125 = some (.drw 1 2 5) ∧ decodeTableWord 16 0x0123 = none := by decide

/-- The placed word is what the step after reset runs. -/
theorem test_with_fetch_word :
    out (step (State.reset.withFetchWord 16 0x6A3C)) (fun s => (s.getV 0xA, s.pc)) = some (0x3C, 0x202) := by decide

/-! ## Control flow (95_test_vectors.md 2.2) -/

/-- CF1 -/
theorem test_jp : out (exec (.jp 0xABC) (on .chip8 [])) (·.pc) = some 0xABC := by decide
/-- CF2 -/
theorem test_call_pushes_its_own_address :
    out (exec (.call 0x400) { on .chip8 [] with pc := 0x250 }) (fun s => (s.stack[0], s.sp, s.pc)) =
      some (0x250, 1, 0x400) := by decide
/-- CF5 -/
theorem test_call_overflow :
    out (exec (.call 0x300) { on .chip8 [] with sp := 15 }) (fun s => (s.fault, s.sp, s.pc)) =
      some (some ⟨.stackOverflow, 0x200, 0⟩, 15, 0x200) := by decide
/-- CF3 -/
theorem test_ret_pops :
    out (exec .ret { on .chip8 [] with sp := 1, stack := (Vector.replicate 16 0).set 0 0x250, pc := 0x400 })
      (fun s => (s.sp, s.pc)) = some (0, 0x252) := by decide
/-- CF4 -/
theorem test_ret_underflow :
    out (exec .ret (on .chip8 [])) (fun s => (s.fault, s.pc)) = some (some ⟨.stackUnderflow, 0x200, 0⟩, 0x200) := by
  decide
/-- CF12 -/
theorem test_jp_v0_chip8 : out (exec (.jpV0 0x0FF) (on .chip8 [(0, 0xFF)])) (·.pc) = some 0x1FE := by decide
/-- CF13 -/
theorem test_jp_vx_chip48 : out (exec (.jpV0 0xFFF) (on .chip48 [(15, 0xFF)])) (·.pc) = some 0x1FE := by decide
/-- CF6 -/
theorem test_se_imm_skips : out (exec (.seImm 3 0x42) (on .chip8 [(3, 0x42)])) (·.pc) = some 0x204 := by decide
/-- CF8 -/
theorem test_sne_imm_skips : out (exec (.sneImm 3 0x42) (on .chip8 [(3, 0x41)])) (·.pc) = some 0x204 := by decide
/-- CF9 -/
theorem test_se_reg_skips : out (exec (.seReg 1 2) (on .chip8 [(1, 7), (2, 7)])) (·.pc) = some 0x204 := by decide
/-- CF11 -/
theorem test_sne_reg_does_not_skip :
    out (exec (.sneReg 1 2) (on .chip8 [(1, 7), (2, 7)])) (·.pc) = some 0x202 := by decide

/-! ## Arithmetic (95_test_vectors.md section 1 and 2.3) -/

/-- A1 -/
theorem test_ld_imm : vOut (exec (.ldImm 0xA 0x3C) (on .chip8 [])) 0xA = some 0x3C := by decide
/-- A3 -/
theorem test_add_imm_no_flag : vOut (exec (.addImm 15 0xFF) (on .chip8 [(15, 1)])) 15 = some 0 := by decide
/-- A4 -/
theorem test_ld_reg : vOut (exec (.ldReg 1 4) (on .chip8 [(4, 0x99)])) 1 = some 0x99 := by decide
/-- S2 -/
theorem test_or :
    out (exec (.orReg 1 2) (on .chip8 [(1, 0x0C), (2, 0x30), (15, 1)])) (fun s => (s.getV 1, s.getV 15)) =
      some (0x3C, 0) := by decide
/-- S2 -/
theorem test_and :
    out (exec (.andReg 1 2) (on .superchip10 [(1, 0x0C), (2, 0x30), (15, 1)])) (fun s => (s.getV 1, s.getV 15)) =
      some (0, 0) := by decide
/-- A5 -/
theorem test_xor :
    out (exec (.xorReg 1 2) (on .chip48 [(1, 0xFF), (2, 0x0F), (15, 1)])) (fun s => (s.getV 1, s.getV 15)) =
      some (0xF0, 0) := by decide
/-- A6 -/
theorem test_add_carry :
    out (exec (.addReg 1 2) (on .chip8 [(1, 0xFF), (2, 0xFF)])) (fun s => (s.getV 1, s.getV 15)) =
      some (0xFE, 1) := by decide
/-- A7 -/
theorem test_add_into_vf : vOut (exec (.addReg 15 1) (on .chip8 [(1, 1), (15, 0xFF)])) 15 = some 1 := by decide
/-- S4 -/
theorem test_sub_borrow :
    out (exec (.subReg 1 2) (on .chip8 [(1, 3), (2, 5)])) (fun s => (s.getV 1, s.getV 15)) = some (0xFE, 0) := by
  decide
/-- A10 -/
theorem test_sub_equal :
    out (exec (.subReg 4 4) (on .chip8 [(4, 0x42)])) (fun s => (s.getV 4, s.getV 15)) = some (0, 1) := by decide
/-- A11 -/
theorem test_subn_borrow :
    out (exec (.subnReg 1 2) (on .chip8 [(1, 5), (2, 3)])) (fun s => (s.getV 1, s.getV 15)) = some (0xFE, 0) := by
  decide
/-- S12, CHIP8 -/
theorem test_shr_chip8 :
    out (exec (.shrReg 1 2) (on .chip8 [(1, 5), (2, 0x80)])) (fun s => (s.getV 1, s.getV 15)) = some (0x40, 0) := by
  decide
/-- S12, CHIP48 -/
theorem test_shr_chip48 :
    out (exec (.shrReg 1 2) (on .chip48 [(1, 5), (2, 0x80)])) (fun s => (s.getV 1, s.getV 15)) = some (2, 1) := by
  decide
/-- A17 -/
theorem test_shl_chip8 :
    out (exec (.shlReg 1 2) (on .chip8 [(1, 0x81), (2, 1)])) (fun s => (s.getV 1, s.getV 15)) = some (2, 0) := by
  decide
/-- A18 -/
theorem test_shl_chip48 :
    out (exec (.shlReg 1 2) (on .chip48 [(1, 0x81), (2, 1)])) (fun s => (s.getV 1, s.getV 15)) = some (2, 1) := by
  decide
/-- A20, with the draw given -/
theorem test_rnd_masks : vOut (rndWith 0xA7 4 0x0F (on .chip8 [])) 4 = some 7 := by decide

/-! ## Index register and memory (95_test_vectors.md 2.4) -/

/-- M1 -/
theorem test_ld_i : out (exec (.ldI 0x2F0) (on .chip8 [])) (·.i) = some 0x2F0 := by decide
/-- M3 -/
theorem test_add_i_wraps :
    out (exec (.addI 0) { on .chip8 [(0, 1)] with i := 0xFFFF }) (fun s => (s.i, s.getV 15)) = some (0, 0) := by decide
/-- M6 -/
theorem test_ld_f_unmasked : out (exec (.ldF 0) (on .chip8 [(0, 0xFF)])) (·.i) = some 0x4FB := by decide
/-- M7 -/
theorem test_bcd :
    out (exec (.ldB 0) { on .chip8 [(0, 0xFE)] with i := 0x300 })
      (fun s => (s.mem.get 0x300, s.mem.get 0x301, s.mem.get 0x302, s.i)) = some (2, 5, 4, 0x300) := by decide
/-- M12 -/
theorem test_bcd_bounds :
    out (exec (.ldB 0) { on .chip8 [(0, 0xFE)] with i := 0xFFE }) (fun s => (s.fault, s.mem)) =
      some (some ⟨.memBounds, 0x200, 0x1000⟩, []) := by decide
/-- S8, CHIP8 -/
theorem test_save_chip8 :
    out (exec (.saveRegs 2) { on .chip8 [(0, 0x11), (1, 0x22), (2, 0x33)] with i := 0x400 })
      (fun s => (s.mem.get 0x400, s.mem.get 0x402, s.mem.get 0x403, s.i)) = some (0x11, 0x33, 0, 0x403) := by decide
/-- M13 -/
theorem test_save_chip48 :
    out (exec (.saveRegs 0) { on .chip48 [(0, 9)] with i := 0x300 }) (fun s => (s.mem.get 0x300, s.i)) =
      some (9, 0x300) := by decide
/-- M17 -/
theorem test_load_at_the_top :
    out (exec (.loadRegs 1) { on .chip8 [] with i := 0xFFE, mem := writeBytes [] 0xFFE [0xAA, 0xBB] })
      (fun s => (s.getV 0, s.getV 1, s.getV 2, s.fault)) = some (0xAA, 0xBB, 0, none) := by decide
/-- S8, SUPERCHIP10 -/
theorem test_load_superchip10 :
    out (exec (.loadRegs 2) { on .superchip10 [] with i := 0x400, mem := writeBytes [] 0x400 [0x11, 0x22, 0x33] })
      (fun s => (s.getV 2, s.i)) = some (0x33, 0x402) := by decide
/-- 10_state.md R47, 20_memory.md R62: the glyph "F" ends the font, and 0 follows. -/
theorem test_font_end :
    State.reset.mem.get 0x04B = 0xF0 ∧ State.reset.mem.get 0x04F = 0x80 ∧ State.reset.mem.get 0x050 = 0 := by decide
/-- Writing what an unlisted address reads as leaves nothing listed. -/
theorem test_memory_canonical :
    Memory.put (Memory.put [] 0x300 7) 0x300 0 = [] ∧
    Memory.put (Memory.put [] 0x301 7) 0x300 9 = [(0x300, 9), (0x301, 7)] := by decide

/-! ## Display (95_test_vectors.md 2.5); a row of pixels is a bit per column, column 0 the lowest -/

/-- D9 -/
theorem test_cls :
    out (exec .cls { on .chip8 [(15, 1)] with fb := (Vector.replicate 64 0).set 5 0xFF })
      (fun s => (s.fb, s.getV 15, s.vbl)) = some (Vector.replicate 64 0, 1, false) := by decide
/-- D8 -/
theorem test_low : out (exec .low { on .superchip10 [] with double := false }) (·.double) = some true := by decide
/-- D8 -/
theorem test_high : out (exec .high (on .superchip10 [])) (·.double) = some false := by decide
/-- D1: rows 3 and 4 of the glyph "0" at column 5. -/
theorem test_drw_glyph :
    out (exec (.drw 1 2 5) (on .chip8 [(1, 5), (2, 3)]))
      (fun s => (s.fb[3], s.fb[4], s.fb[7], s.fb[8], s.getV 15)) =
      some (0x1E0, 0x120, 0x1E0, 0, 0) := by decide +kernel
/-- D5: a doubled pixel at the right edge, clipped, with a collision. -/
theorem test_drw_doubled_clip :
    out (exec (.drw 0 1 1) { on .superchip10 [(0, 0x3F), (1, 0x1F)] with
        i := 0x100, mem := [(0x100, 0xC0)], fb := (Vector.replicate 64 0).set 62 ((1 : BitVec 128) <<< 126) })
      (fun s => (s.fb[62], s.fb[63], s.getV 15)) =
      some ((1 : BitVec 128) <<< 127, (3 : BitVec 128) <<< 126, 1) := by decide +kernel
/-- P6, its first draw: 16 columns of which 8 are clipped. -/
theorem test_drw_sixteen_columns :
    out (exec (.drw 0 1 0) { on .superchip10 [(0, 0x78), (1, 0x04)] with
        i := 0x212, mem := writeBytes [] 0x212 (List.replicate 32 0xFF), double := false })
      (fun s => (s.fb[3], s.fb[4], s.fb[19], s.fb[20])) =
      some ((0 : BitVec 128), (0xFF : BitVec 128) <<< 120, (0xFF : BitVec 128) <<< 120, (0 : BitVec 128)) := by decide +kernel
/-- D11 -/
theorem test_drw_bounds :
    out (exec (.drw 0 0 2) { on .chip8 [] with i := 0xFFF }) (fun s => (s.fault, s.vbl)) =
      some (some ⟨.memBounds, 0x200, 0x1000⟩, false) := by decide +kernel

/-! ## Keys and timers (95_test_vectors.md 2.6) -/

/-- K1 -/
theorem test_skp_down :
    out (exec (.skp 2) { on .chip8 [(2, 5)] with keys := (Vector.replicate 16 false).set 5 true }) (·.pc) =
      some 0x204 := by decide
/-- K3 -/
theorem test_sknp_up : out (exec (.sknp 2) (on .chip8 [(2, 5)])) (·.pc) = some 0x204 := by decide
/-- K4: either answer of the draw. -/
theorem test_skp_draw :
    out (skipOnKey true true (on .chip8 [])) (·.pc) = some 0x204 ∧
    out (skipOnKey false true (on .chip8 [])) (·.pc) = some 0x202 := by decide
/-- K5 -/
theorem test_ld_vx_dt : vOut (exec (.ldVxDt 3) { on .chip8 [] with dt := 0x1E }) 3 = some 0x1E := by decide
/-- K6 -/
theorem test_ld_dt_vx : out (exec (.ldDtVx 3) (on .chip8 [(3, 5)])) (·.dt) = some 5 := by decide
/-- K7 -/
theorem test_ld_st_vx : out (exec (.ldStVx 0) (on .chip8 [(0, 0x10)])) (·.st) = some 0x10 := by decide
/-- K9, with the key-click value of P4. -/
theorem test_key_wait_records :
    out (keyWaitWith 4 4 { on .chip8 [] with pc := 0x220, lastKey := some 7 })
      (fun s => (s.getV 4, s.st, s.kw, s.kwk, s.pc)) = some (7, 4, .held, 7, 0x220) := by decide
/-- K11 -/
theorem test_key_wait_resumes :
    out (exec (.ldVxK 4) { on .chip8 [(4, 7)] with pc := 0x220, kw := .held, kwk := 7 })
      (fun s => (s.kw, s.pc, s.getV 4)) = some (.idle, 0x222, 7) := by decide

/-! ## The cycle, the clocks and the scheduler (95_test_vectors.md 2.2, 2.6 to 2.8) -/

/-- CF16 -/
theorem test_fetch_at_the_top :
    out (clockSys { on .chip8 [] with pc := 0xFFF }) (·.fault) = some (some ⟨.memBounds, 0xFFF, 0x1000⟩) := by decide
/-- CF17: an odd PC is fetched from. -/
theorem test_fetch_odd_pc : out (step (slotState .chip8 0x201 [0x1A, 0xBC])) (·.pc) = some 0xABC := by decide
/-- 2.1, the invalid-opcode report. -/
theorem test_invalid_is_reported :
    out (step (slotState .chip8 0x200 [0x51, 0x21])) (fun s => (s.pc, s.out)) =
      some (0x202, [.invalidOpcode 0x200 0x5121]) := by decide
/-- S9, K13 -/
theorem test_timer_floor :
    (clock60hz { on .chip8 [] with dt := 1, vbl := true }).dt = 0 ∧
    (clock60hz { on .chip8 [] with vbl := true }).dt = 0 ∧
    (clock60hz { on .chip8 [] with vbl := true }).vbl = false := by decide
/-- K14, K7 -/
theorem test_sound_clock :
    (clockSound (on .chip8 [])).toneReq = false ∧ (clockSound { on .chip8 [] with st := 1 }).toneReq = true := by decide
/-- K15 -/
theorem test_bus_clock :
    ((clockBus default { on .chip8 [] with toneReq := true }).out.head? = some (.audio false)) ∧
    (clockBus default { on .chip8 [] with toneReq := true }).toneReq = false := by decide
/-- T2 and T4 -/
theorem test_slot_counts :
    slotCounts 0 [2 / 60, 1 / 60] = ([16, 9], 0) ∧ slotCounts 0 [10, 1 / 60] = ([5000, 8], 1 / 3) := by decide +kernel
/-- S7 -/
theorem test_rom_load :
    out (loadRom (some [0x12, 0x34, 0x56]) State.reset) (·.mem) = some [(0x200, 0x12), (0x201, 0x34), (0x202, 0x56)] := by
  decide
/-- The code column of 60_exceptions.md R168. -/
theorem test_cause_codes :
    FaultCause.stackOverflow.code = 1 ∧ FaultCause.stackUnderflow.code = 2 ∧ FaultCause.memBounds.code = 3 ∧
    (Fault.romLoad .empty).error = some (4, .loadFailure) ∧
    (HostEvent.invalidOpcode 0x200 0x5121).error = some (8, .report) ∧
    (HostEvent.faultDiagnostic ⟨.memBounds, 0x200, 0x1000⟩).error = some (3, .fault) := by decide
/-- L5 -/
theorem test_reset_double : State.reset.double = true ∧ (State.construct .chip8).double = false := by decide
/-- A fault ends the loop with the diagnostic, in the same slot (60_exceptions.md R203). -/
theorem test_fault_ends_the_loop :
    out (step (slotState .chip8 0x200 [0x00, 0xEE])) (fun s => (s.phase, s.out)) =
      some (.stopped .fault, [.faultDiagnostic ⟨.stackUnderflow, 0x200, 0⟩]) := by decide

/-! ## Witnesses: for every statement with hypotheses, a concrete state and operands that meet them, at the boundary
values of each clause -/

/-- A state in a cycle slot whose word is 0x1ABC, in a frame that fired now, one second after the last. -/
def running : State :=
  { slotState .chip8 0x200 [0x1A, 0xBC] with tLast := Config.now 0 - 1, phase := .frame 1 (Config.now 0) }

/-- A state stopped by a stack underflow at 0x200. -/
def faulted : State :=
  { State.construct .chip8 with fault := some ⟨.stackUnderflow, 0x200, 0⟩, phase := .stopped .fault }

theorem test_witness_inv_running : running.Inv where
  memWf := by decide
  spRange := by decide
  topEntry := by decide
  doubleTarget := by decide
  grid := fun px py h => absurd (FrameBuffer.pixel_blank px py) (by
    rw [show running.fb = FrameBuffer.blank from rfl] at h
    simp [h])
  creditRange := ⟨le_rfl, one_pos⟩
  clock := ⟨sub_le_self _ zero_le_one, fun u h => by
    cases h
    exact ⟨by simp only [running, Params.framePeriod]; linarith, le_rfl⟩⟩
  faultStops := ⟨fun h => (nomatch h), fun h => (nomatch h)⟩
  faultPrecise := fun f h => (nomatch h)
  held := fun h => (nomatch h)
  loadIdle := fun _ => rfl

theorem test_witness_inv_faulted : faulted.Inv where
  memWf := by decide
  spRange := by decide
  topEntry := by decide
  doubleTarget := by decide
  grid := fun px py h => absurd (FrameBuffer.pixel_blank px py) (by
    rw [show faulted.fb = FrameBuffer.blank from rfl] at h
    simp [h])
  creditRange := ⟨le_rfl, one_pos⟩
  clock := ⟨le_rfl, fun u h => (nomatch h)⟩
  faultStops := ⟨fun _ => rfl, fun _ => rfl⟩
  faultPrecise := fun f h => by
    cases h
    exact ⟨rfl, fun e => (nomatch e), fun _ => rfl⟩
  held := fun h => (nomatch h)
  loadIdle := fun _ => rfl

/-- EveryStepKeepsInv -/
theorem test_witness_step_keeps_inv : ∃ s t : State, s.Inv ∧ step s = .next t :=
  ⟨running, _, test_witness_inv_running, rfl⟩

/-- RomLoadPlacesBytes: the shortest and the longest ROM. -/
theorem test_witness_rom_load :
    (State.construct .chip8).mem.wf = true ∧ 1 ≤ ([0x12] : List Byte).length ∧
    1 ≤ (List.replicate 3584 (0 : Byte)).length ∧ (List.replicate 3584 (0 : Byte)).length ≤ 3584 := by
  rw [List.length_replicate]
  exact ⟨rfl, by decide, by omega, le_rfl⟩

/-- BadRomStopsBeforeAnyCycle: one byte over the limit. -/
theorem test_witness_bad_rom : 3584 < (List.replicate 3585 (0 : Byte)).length := by
  rw [List.length_replicate]
  omega

/-- DecodeOfEncodeIsTheInstruction -/
theorem test_witness_decode_of_encode :
    Instr.wellFormed .superchip10 .low = true ∧ Instr.wellFormed .chip8 (.drw 15 15 15) = true := by decide

/-- DecodedWordIsItsEncoding, and the second clause of InvalidIsWhatNoRowMatches -/
theorem test_witness_decoded_word :
    decode .chip8 0xFFFF = .error .fFamily ∧ decode .chip8 0xFF65 = .ok (.loadRegs 15) := by decide

/-- NoTwoRowsMatchOneWord -/
theorem test_witness_row_matches :
    ∃ r ∈ opTable, r.hits .superchip10 0x00FF = true ∧ ∃ r' ∈ opTable, r'.hits .superchip10 0x00FF = true := by
  decide

/-- SuppressedCycleDoesNothing: either latch. -/
theorem test_witness_suppressed :
    (faulted.fault ≠ none ∨ faulted.vbl = true) ∧
    (({ running with vbl := true } : State).fault ≠ none ∨ ({ running with vbl := true } : State).vbl = true) := by
  decide

/-- FetchIsBigEndianOrFaults: the last PC that fetches, the one across the end, the first outside. -/
theorem test_witness_fetch :
    running.fault = none ∧ running.vbl = false ∧ (0xFFE : Word).toNat < 0xFFF ∧
    (0x1000 : Nat) ≤ (0x1000 : Word).toNat := by decide

/-- InvalidWordIsReportedNoOp -/
theorem test_witness_invalid : decode running.target 0x0000 = .error .zeroFamily := by decide

/-- StepRunsTheDecodedInstruction, the clause of a next state without a fault. -/
theorem test_witness_step_runs :
    running.phase = .frame 1 (Config.now 0) ∧ running.fault = none ∧ running.vbl = false ∧
    running.pc.toNat < 0xFFF ∧
    decode running.target (running.mem.get running.pc.toNat ++ running.mem.get (running.pc.toNat + 1)) =
      .ok (.jp 0xABC) ∧
    out (exec (.jp 0xABC) running) (·.fault) = some none :=
  ⟨rfl, by decide, by decide, by decide, by decide, by decide⟩

/-- The same statement, the clauses of a latched fault and of a stop: RET with SP 0 and with SP 17. -/
theorem test_witness_step_stops :
    (slotState .chip8 0xFFE [0x00, 0xEE]).pc.toNat < 0xFFF ∧
    decode .chip8 ((slotState .chip8 0xFFE [0x00, 0xEE]).mem.get 0xFFE ++
      (slotState .chip8 0xFFE [0x00, 0xEE]).mem.get 0xFFF) = .ok .ret ∧
    out (exec .ret (slotState .chip8 0xFFE [0x00, 0xEE])) (·.fault) = some (some ⟨.stackUnderflow, 0xFFE, 0⟩) ∧
    exec .ret { slotState .chip8 0xFFE [0x00, 0xEE] with sp := 17 } = .fault .stackEntryAbsent :=
  ⟨by decide, by decide, by decide, rfl⟩

/-- The same statement, the clauses of an Invalid word and of a fetch at the end of memory. -/
theorem test_witness_step_invalid_and_fetch :
    decode .chip8 ((slotState .chip8 0xFFE [0x51, 0x21]).mem.get 0xFFE ++
      (slotState .chip8 0xFFE [0x51, 0x21]).mem.get 0xFFF) = .error .fiveFamily ∧
    0xFFF ≤ ({ slotState .chip8 0x200 [] with pc := 0xFFF } : State).pc.toNat := by decide

/-- FaultsArePrecise -/
theorem test_witness_faults_precise :
    ∃ s t f, s.fault = none ∧ clockSys s = .next t ∧ t.fault = some f :=
  ⟨slotState .chip8 0x200 [0x00, 0xEE], _, _, rfl, rfl, rfl⟩

/-- RetPopsOrUnderflows: the lowest and the highest entry. -/
theorem test_witness_ret :
    (State.construct .chip8).sp = 0 ∧ (1 : BitVec 8).toNat = 0 + 1 ∧ (15 : BitVec 8).toNat = 14 + 1 := by decide

/-- CallPushesOrOverflows, StackPointerOutOfRangeIsSafe and RetReturnsAfterItsCall: SP at 14, 15, 16, 17. -/
theorem test_witness_call :
    (14 : BitVec 8).toNat < 15 ∧ ¬(15 : BitVec 8).toNat < 15 ∧ 15 < (16 : BitVec 8).toNat ∧
    16 < (17 : BitVec 8).toNat := by decide

/-- FifteenNestedCallsThenOverflow -/
theorem test_witness_nested :
    (State.construct .chip8).sp = 0 ∧ (State.construct .chip8).fault = none ∧
    (List.replicate 15 (0x200 : BitVec 12)).length = 15 := by decide

/-- RetReturnsAfterItsCall, its inner hypotheses. -/
theorem test_witness_ret_after_call :
    ∃ t t' : State, exec (.call 0x300) { State.construct .chip8 with sp := 14 } = .next t ∧ t'.sp = t.sp ∧
      t'.stack = t.stack ∧ t' ≠ t :=
  ⟨_, { State.construct .chip8 with sp := 15, stack := (Vector.replicate 16 0).set 14 0x200 }, rfl, rfl, rfl,
    fun h => absurd (congrArg State.pc h) (by decide)⟩

/-- JumpsSetThePc: both readings. -/
theorem test_witness_jumps :
    (State.construct .chip8).target = .chip8 ∧ (State.construct .chip48).target ≠ .chip8 ∧
    (0x210 : BitVec 12) = nibble 2 ++ (0x10 : Byte) := by decide

/-- ShiftsByTarget: both operands. -/
theorem test_witness_shift :
    (0x80 : Byte) = (if (on .chip8 [(1, 5), (2, 0x80)]).target = .chip8 then (on .chip8 [(1, 5), (2, 0x80)]).getV 2
      else (on .chip8 [(1, 5), (2, 0x80)]).getV 1) ∧
    (5 : Byte) = (if (on .chip48 [(1, 5), (2, 0x80)]).target = .chip8 then (on .chip48 [(1, 5), (2, 0x80)]).getV 2
      else (on .chip48 [(1, 5), (2, 0x80)]).getV 1) := by decide

/-- FlagRemainsWhenVfIsTheDestination: one instruction of each of the eight, with its flag on `VF = 0x81`, `V1 = 1`. -/
theorem test_witness_flag_remains (s : State) (h : s = on .chip8 [(15, 0x81), (1, 1)]) :
    (Instr.orReg 15 1 = .orReg 15 1 ∧ (0 : Byte) = 0) ∧
    (0 : Byte) = (if (s.getV 15).toNat + (s.getV 1).toNat > 255 then 1 else 0) ∧
    (1 : Byte) = (if (s.getV 15).toNat ≥ (s.getV 1).toNat then 1 else 0) ∧
    (0 : Byte) = (if (s.getV 1).toNat ≥ (s.getV 15).toNat then 1 else 0) ∧
    (1 : Byte) = (if s.target = .chip8 then s.getV 1 else s.getV 15) % 2 ∧
    (0 : Byte) = (if s.target = .chip8 then s.getV 1 else s.getV 15) / 128 := by
  subst h
  decide

/-- BcdStoresThreeDigits, SaveStoresTheRegisterRange, LoadFillsTheRegisterRange, SaveThenLoadRestoresRegisters: ranges
that end at the last byte. -/
theorem test_witness_ranges_in_memory :
    (State.construct .chip8).mem.wf = true ∧ (0xFFD : Word).toNat + 2 < 0x1000 ∧
    (0xFF0 : Word).toNat + (15 : Reg).val < 0x1000 := by decide

/-- OutOfRangeAccessFaults: each of the five shapes, one byte too far; N = 0 on SUPERCHIP10 among them. -/
theorem test_witness_ranges_out_of_memory :
    0x1000 < (0xFFE : Word).toNat + 3 ∧ 0x1000 < (0xFF1 : Word).toNat + ((15 : Reg).val + 1) ∧
    (1 : BitVec 4) ≠ 0 ∧ 0x1000 < (0x1000 : Word).toNat + (1 : BitVec 4).toNat ∧
    (State.construct .superchip10).target = .superchip10 ∧ 0x1000 < (0xFE1 : Word).toNat + 32 := by decide

/-- DrawFlipsExactlyTheCoveredPixels and DrawingTwiceRestoresThePixels: the last sprite in memory, and a blank screen
under it. -/
theorem test_witness_draw :
    (0xFE0 : Word).toNat + (spriteShape .superchip10 0).len ≤ 0x1000 ∧
    (0xFF1 : Word).toNat + (spriteShape .chip8 15).len ≤ 0x1000 ∧
    (regs [(1, 5)])[1] = (on .chip8 [(1, 5)]).getV 1 := by decide

/-- DrawingTwiceRestoresThePixels, its inner hypothesis: a sprite that covers some pixel, all of them clear. -/
theorem test_witness_draw_clear :
    (∀ px py, covers 0 0 5 (State.construct .chip8) px py = true → (State.construct .chip8).fb.pixel px py = false) ∧
    covers 0 0 5 (State.construct .chip8) 0 0 = true :=
  ⟨fun px py _ => FrameBuffer.pixel_blank px py, by decide +kernel⟩

/-- DrawOfZeroRowsOnlySetsLatches -/
theorem test_witness_draw_zero : (State.construct .chip48).target ≠ .superchip10 := by decide

/-- SkipOnSnapshotKey and SkipOnKeyCodeAboveFifteenIsADraw: the codes 15 and 16. -/
theorem test_witness_key_codes :
    ((on .chip8 [(2, 15)]).getV 2).toNat = (15 : Key).val ∧ 15 < ((on .chip8 [(2, 16)]).getV 2).toNat := by decide

/-- KeyWaitRecordsHoldsAndResumes: the four cases. -/
theorem test_witness_key_wait :
    (running.kw = .idle ∧ running.lastKey = none) ∧
    (({ running with lastKey := some 7 } : State).kw = .idle ∧
      ({ running with lastKey := some 7 } : State).lastKey = some 7) ∧
    (Vector.replicate 16 true)[(7 : Key).val] = true ∧ (Vector.replicate 16 false)[(7 : Key).val] = false := by decide

/-- OnlyNamedRegistersAreWritten, MemoryOutsideTheStoredRangeIsUnchanged, EachFieldHasItsWritersOnly: an instruction
that stores, and its neighbours. -/
theorem test_witness_frames :
    ∃ s t : State, exec (.saveRegs 1) s = .next t ∧ writesReg (.saveRegs 1) 15 = false ∧
      ¬(s.i.toNat ≤ 0x302 ∧ 0x302 < s.i.toNat + storedLen (.saveRegs 1)) ∧
      ¬(s.i.toNat ≤ 0x2FF ∧ 0x2FF < s.i.toNat + storedLen (.saveRegs 1)) ∧
      (∀ nnn, Instr.saveRegs 1 ≠ .call nnn) ∧ Instr.saveRegs 1 ≠ .ret :=
  ⟨{ State.construct .chip8 with i := 0x300 }, _, rfl, by decide, by decide, by decide, by simp, by simp⟩

/-- EachFieldHasItsWritersOnly, its other clauses: CLS is none of the writers they name, but for the screen's; RET is
none of the screen's. -/
theorem test_witness_frames_others :
    (∀ nnn, Instr.cls ≠ .ldI nnn) ∧ (∀ x, Instr.cls ≠ .addI x) ∧ (∀ x, Instr.cls ≠ .ldF x) ∧
    (∀ x, Instr.cls ≠ .saveRegs x) ∧ (∀ x, Instr.cls ≠ .loadRegs x) ∧ (∀ x, Instr.cls ≠ .ldDtVx x) ∧
    (∀ x, Instr.cls ≠ .ldStVx x) ∧ (∀ x, Instr.cls ≠ .ldVxK x) ∧ Instr.cls ≠ .low ∧ Instr.cls ≠ .high ∧
    (∀ x y n, Instr.cls ≠ .drw x y n) ∧ (∀ x nn, Instr.cls ≠ .rnd x nn) ∧ (∀ x, Instr.cls ≠ .skp x) ∧
    (∀ x, Instr.cls ≠ .sknp x) ∧ (∀ nnn, Instr.cls ≠ .call nnn) ∧ Instr.cls ≠ .ret ∧ (∀ x, Instr.cls ≠ .ldB x) ∧
    Instr.ret ≠ .cls ∧ (∀ x y n, Instr.ret ≠ .drw x y n) := by
  simp

/-- PcMovesByTwoUnlessControlFlow -/
theorem test_witness_pc_moves :
    ∃ s t : State, s.fault = none ∧ exec (.seImm 0 0) s = .next t ∧ t.fault = none ∧ Instr.seImm 0 0 ≠ .ret ∧
      (∀ nnn, Instr.seImm 0 0 ≠ .jp nnn) ∧ (∀ nnn, Instr.seImm 0 0 ≠ .call nnn) ∧
      (∀ nnn, Instr.seImm 0 0 ≠ .jpV0 nnn) :=
  ⟨State.construct .chip8, _, rfl, rfl, rfl, by simp, by simp, by simp, by simp⟩

/-- FrameFiresAfterOnePeriod: exactly 1/60 s after the last frame, and just before. -/
theorem test_witness_frame_fires :
    ({ running with phase := .wait, tLast := 1 } : State).phase = .wait ∧
    0 ≤ ({ running with phase := .wait, tLast := 1 } : State).credit ∧ (1 / 60 : Rat) ≤ 61 / 60 - 1 ∧
    (61 / 60 - 1 / 1000 : Rat) - 1 < 1 / 60 := by
  refine ⟨rfl, le_rfl, ?_, ?_⟩ <;> norm_num

/-- FrameEndsWithBusThenTickThenExitCheck and KeysChangeOnlyAtThePoll -/
theorem test_witness_frame_ends :
    ({ running with phase := .frame 0 0 } : State).phase = .frame 0 0 ∧
    (∃ t, step running = .next t) ∧ ∀ u, running.phase ≠ .frame 0 u :=
  ⟨rfl, ⟨_, rfl⟩, fun _ h => (nomatch h)⟩

/-- EveryFrameHasEightSlots and SlotCountsDoNotDrift: the least credit and the least delta. -/
theorem test_witness_credit : (0 : Rat) ≤ 0 ∧ ∀ d ∈ [(1 / 60 : Rat), 1 / 50], 1 / 60 ≤ d := by
  norm_num

/-- VblankWaitUsesUpTheFrame -/
theorem test_witness_vblank :
    ({ running with vbl := true } : State).phase = .frame 1 (Config.now 0) ∧ ({ running with vbl := true } : State).vbl = true ∧
    ({ running with vbl := true } : State).fault = none := ⟨rfl, rfl, rfl⟩

/-- FaultedMachineWaitsForReset -/
theorem test_witness_faulted : faulted.Inv ∧ faulted.fault ≠ none := ⟨test_witness_inv_faulted, by decide⟩

/-- ResetBetweenFramesKeepsMemoryAndSchedule and LoadThenRunStartsTheLoop -/
theorem test_witness_phases :
    ({ running with phase := .wait } : State).phase = .wait ∧ (State.construct .chip8).phase = .load ∧
    1 ≤ ([0x12, 0x00] : List Byte).length ∧ ([0x12, 0x00] : List Byte).length ≤ 3584 :=
  ⟨rfl, rfl, by decide, by decide⟩

end Sys2Proof.Tests
end

section
/-! PROOFS. The flag layer of the arithmetic instructions and its obligation (42_alu.md R130), then the frame of an
instruction and the obligation that the target never changes (00_scope.md R2). -/

namespace Sys2Proof.Machine

/-! ## The flags in the terms of the spec (42_alu.md R121 to R125) -/

theorem carryFlag_eq (a b : Byte) : carryFlag a b = if a.toNat + b.toNat > 255 then 1 else 0 := by
  simp only [carryFlag, flagByte, decide_eq_true_eq]

theorem notBorrowFlag_eq (a b : Byte) : notBorrowFlag a b = if a.toNat ≥ b.toNat then 1 else 0 := by
  simp only [notBorrowFlag, flagByte, decide_eq_true_eq]

theorem shiftedOutRight_eq_mod (w : Byte) : shiftedOutRight w = w % 2 := by
  apply BitVec.eq_of_toNat_eq
  simp [shiftedOutRight, Nat.and_one_is_mod]

theorem shiftedOutLeft_eq_div (w : Byte) : shiftedOutLeft w = w / 128 := by
  apply BitVec.eq_of_toNat_eq
  simp [shiftedOutLeft, Nat.and_one_is_mod, Nat.shiftRight_eq_div_pow]
  omega

theorem shiftOperand_eq (s : State) (x y : Reg) :
    shiftOperand s x y = if s.target = .chip8 then s.getV y else s.getV x := by
  simp only [shiftOperand, State.q, shiftCopiesY_iff]

/-! ## VF as the destination (42_alu.md R130) -/

/-- The flag is written last, so with VF as the destination the result is lost (00_scope.md R14). -/
theorem writeRegFlag_vf (r f : Byte) (s : State) :
    writeRegFlag 15 r f s = .next { s with v := s.v.set 15 f, pc := s.pc + 2 } := by
  have hset : (s.v.set (15 : Reg).val r).set 15 f = s.v.set 15 f := Vector.set_set ..
  rw [writeRegFlag_eq, hset]

theorem writeRegLogic_vf (r : Byte) (s : State) :
    writeRegLogic 15 r s = .next { s with v := s.v.set 15 0, pc := s.pc + 2 } := by
  rw [writeRegLogic_eq, ← writeRegFlag_eq, writeRegFlag_vf]

/-- Settles O29, by the flag each instruction writes: the shape of its meaning leaves nothing of the result. -/
theorem flagRemainsWhenVfIsTheDestination : Obligations.FlagRemainsWhenVfIsTheDestination := by
  rintro s y i f (⟨rfl | rfl | rfl, rfl⟩ | ⟨rfl, rfl⟩ | ⟨rfl, rfl⟩ | ⟨rfl, rfl⟩ | ⟨rfl, rfl⟩ | ⟨rfl, rfl⟩)
  · exact writeRegLogic_vf _ s
  · exact writeRegLogic_vf _ s
  · exact writeRegLogic_vf _ s
  · rw [← carryFlag_eq]; exact writeRegFlag_vf _ _ s
  · rw [← notBorrowFlag_eq]; exact writeRegFlag_vf _ _ s
  · rw [← notBorrowFlag_eq]; exact writeRegFlag_vf _ _ s
  · rw [← shiftOperand_eq, ← shiftedOutRight_eq_mod]; exact writeRegFlag_vf _ _ s
  · rw [← shiftOperand_eq, ← shiftedOutLeft_eq_div]; exact writeRegFlag_vf _ _ s

/-! ## What no instruction touches -/

/-- An instruction leaves the target, the input snapshot, the tone request, the scheduler's fields and the events given
to the host as they are. -/
theorem exec_frame {i : Instr} {s t : State} (h : exec i s = .next t) :
    t = { t with
      target := s.target, keys := s.keys, lastKey := s.lastKey, exit := s.exit, toneReq := s.toneReq,
      tLast := s.tLast, credit := s.credit, phase := s.phase, out := s.out } := by
  cases i
  case ret =>
    simp only [exec, execRet] at h
    split at h
    · cases h; rfl
    · split at h <;> cases h; rfl
  case call nnn =>
    simp only [exec, execCall] at h
    split at h <;> cases h <;> rfl
  case ldVxK x =>
    obtain ⟨_, _, e⟩ | ⟨k, _, _, e⟩ | ⟨_, _, e⟩ | ⟨_, _, e⟩ := keyWaitWith_cases Config.keyClickSt x s <;>
      simp only [exec, execLdVxK, e] at h <;> cases h <;> rfl
  case drw | ldB | saveRegs | loadRegs =>
    rcases checked_next h with ⟨a, _, rfl⟩ | ⟨_, e⟩
    · rfl
    · cases e; rfl
  case skp | sknp => cases h; rw [afterKeyAnswer_eq]; rfl
  case orReg | andReg | xorReg => cases (writeRegLogic_eq _ _ s).symm.trans h; rfl
  all_goals
    cases h
    rfl

theorem exec_target {i : Instr} {s t : State} (h : exec i s = .next t) : t.target = s.target :=
  (congrArg State.target (exec_frame h) :)

/-! ## The target through the scheduler's events (00_scope.md R2) -/

theorem clockSys_target {s t : State} (h : clockSys s = .next t) : t.target = s.target := by
  obtain ⟨_, e⟩ | ⟨a, _, _, e⟩ | ⟨i, _, _, e⟩ | ⟨_, _, _, e⟩ := clockSys_cases s <;> rw [e] at h
  · cases h; rfl
  · cases h; rfl
  · exact exec_target h
  · cases h; rfl

@[simp] theorem clockSound_target (s : State) : (clockSound s).target = s.target := by
  rw [clockSound_eq]

@[simp] theorem afterCycle_target (n : Nat) (u : Rat) (s : State) : (afterCycle n u s).target = s.target := by
  unfold afterCycle
  split
  · rfl
  · exact clockSound_target s

@[simp] theorem iterate_target (u : Rat) (s : State) : (iterate u s).target = s.target := by
  unfold iterate
  split <;> rfl

@[simp] theorem betweenFrames_target (s : State) : (betweenFrames s).target = s.target := by
  unfold betweenFrames betweenFramesWith
  split
  · rfl
  · exact iterate_target _ s

@[simp] theorem clockBus_target (p : Poll) (s : State) : (clockBus p s).target = s.target := by
  obtain ⟨evs, e⟩ := clockBus_frame p s
  rw [e]

@[simp] theorem afterStop_target (s : State) : (afterStop s).target = s.target := by
  unfold afterStop afterStopWith
  split <;> rfl

/-- Settles O57, by the events a step can be: only a cycle slot executes an instruction, and no instruction writes the
target. -/
theorem targetNeverChanges : Obligations.TargetNeverChanges := by
  intro s t h
  obtain ⟨_, h⟩ | ⟨_, rfl⟩ | ⟨_, rfl⟩ | ⟨n, u, _, h⟩ | ⟨u, _, rfl⟩ | ⟨u, _, rfl⟩ | ⟨w, _, rfl⟩ := step_cases h
  · obtain ⟨r, _, _, _, rfl⟩ := loadRom_next h
    rfl
  · rfl
  · exact betweenFrames_target s
  · obtain ⟨s1, hs, rfl⟩ := slot_next h
    exact (afterCycle_target n u s1).trans (clockSys_target hs)
  · rw [State.goto_target, State.drawn_target, clockBus_target]
  · rfl
  · exact afterStop_target s

end Sys2Proof.Machine
end

section
/-! PROOFS. The family 10_state.md: which instruction writes which field, the invariant and every step's keeping it,
construction and the CPU reset. -/

namespace Sys2Proof.Machine

/-! ## What RET and CALL can do (41_control_flow.md R105, R107) -/

/-- A RET that answers a next state latches the underflow or pops an entry. -/
theorem execRet_next {s t : State} (h : exec .ret s = .next t) :
    (s.sp = 0 ∧ t = s.raise .stackUnderflow 0) ∨
    (∃ w, s.sp ≠ 0 ∧ t = (s.setSp (s.sp - 1)).setPc (w + 2)) := by
  simp only [exec, execRet] at h
  split at h
  · next h0 => exact .inl ⟨h0, by simpa using h.symm⟩
  · next h0 =>
    split at h
    · next w _ => exact .inr ⟨w, h0, by simpa using h.symm⟩
    · cases h

/-- CALL latches the overflow or pushes its own address. -/
theorem execCall_next {nnn : BitVec 12} {s t : State} (h : exec (.call nnn) s = .next t) :
    (15 ≤ s.sp.toNat ∧ t = s.raise .stackOverflow 0) ∨
    (s.sp.toNat < 15 ∧ t = ((s.setStack s.sp.toNat s.pc).setSp (s.sp + 1)).setPc (zextAddr nnn)) := by
  simp only [exec, execCall, Params.stackLimit] at h
  split at h
  · next hs => exact .inl ⟨hs, by simpa using h.symm⟩
  · next hs => exact .inr ⟨by omega, by simpa using h.symm⟩

/-! ## The writers of each field (10_state.md sections 2 to 6) -/

/-- Settles O48, instruction by instruction: what each can answer next is one of a few named updates, and the laws of
the state say which fields an update leaves alone. -/
theorem eachFieldHasItsWritersOnly : Obligations.EachFieldHasItsWritersOnly := by
  intro i s t h
  cases i
  case ret => obtain ⟨_, rfl⟩ | ⟨w, _, rfl⟩ := execRet_next h <;> simp
  case call nnn => obtain ⟨_, rfl⟩ | ⟨_, rfl⟩ := execCall_next h <;> simp
  case ldVxK x =>
    obtain ⟨_, _, e⟩ | ⟨k, _, _, e⟩ | ⟨_, _, e⟩ | ⟨_, _, e⟩ := keyWaitWith_cases Config.keyClickSt x s <;>
      cases e.symm.trans h <;> simp
  case drw | ldB | saveRegs | loadRegs =>
    obtain ⟨a, _, rfl⟩ | ⟨_, e⟩ := checked_next h
    · simp
    · cases e; simp
  case skp | sknp => cases h; simp [afterKeyAnswer_eq]
  case orReg | andReg | xorReg => cases (writeRegLogic_eq _ _ s).symm.trans h; simp
  all_goals
    cases h
    simp

section
variable {i : Instr} {s t : State}

theorem exec_stack (h : exec i s = .next t) (hc : ∀ nnn, i ≠ .call nnn) : t.stack = s.stack := by
  obtain ⟨hstack, _⟩ := eachFieldHasItsWritersOnly i s t h
  exact hstack hc

theorem exec_sp (h : exec i s = .next t) (hc : ∀ nnn, i ≠ .call nnn) (hr : i ≠ .ret) : t.sp = s.sp := by
  obtain ⟨_, hsp, _⟩ := eachFieldHasItsWritersOnly i s t h
  exact hsp hc hr

theorem exec_fb (h : exec i s = .next t) (hc : i ≠ .cls) (hd : ∀ x y n, i ≠ .drw x y n) : t.fb = s.fb := by
  obtain ⟨_, _, _, _, _, hfb, _⟩ := eachFieldHasItsWritersOnly i s t h
  exact hfb hc hd

theorem exec_double (h : exec i s = .next t) (hl : i ≠ .low) (hh : i ≠ .high) : t.double = s.double := by
  obtain ⟨_, _, _, _, _, _, hdouble, _⟩ := eachFieldHasItsWritersOnly i s t h
  exact hdouble hl hh

theorem exec_kw (h : exec i s = .next t) (hk : ∀ x, i ≠ .ldVxK x) : t.kw = s.kw := by
  obtain ⟨_, _, _, _, _, _, _, _, hkw, _⟩ := eachFieldHasItsWritersOnly i s t h
  exact (hkw hk).1

theorem exec_fault (h : exec i s = .next t) (hc : ∀ nnn, i ≠ .call nnn) (hr : i ≠ .ret) (hd : ∀ x y n, i ≠ .drw x y n)
    (hb : ∀ x, i ≠ .ldB x) (hs : ∀ x, i ≠ .saveRegs x) (hl : ∀ x, i ≠ .loadRegs x) : t.fault = s.fault := by
  obtain ⟨_, _, _, _, _, _, _, _, _, hfault, _⟩ := eachFieldHasItsWritersOnly i s t h
  exact hfault hc hr hd hb hs hl

theorem exec_draws (h : exec i s = .next t) (hr : ∀ x nn, i ≠ .rnd x nn) (hs : ∀ x, i ≠ .skp x)
    (hn : ∀ x, i ≠ .sknp x) : t.draws = s.draws := by
  obtain ⟨_, _, _, _, _, _, _, _, _, _, hdraws, _⟩ := eachFieldHasItsWritersOnly i s t h
  exact hdraws hr hs hn

end

/-! ## The registers (10_state.md R24, R25) -/

theorem State.getV_setV_ne (s : State) {x r : Reg} (b : Byte) (hx : r ≠ x) : (s.setV x b).getV r = s.getV r :=
  (s.getV_setV x r b).trans (if_neg hx.symm)

theorem getV_of_writeReg {x r : Reg} {b : Byte} {s t : State} (h : writeReg x b s = .next t) (hx : r ≠ x) :
    t.getV r = s.getV r := by
  cases h
  exact s.getV_setV_ne b hx

theorem getV_of_writeRegFlag {x r : Reg} {b f : Byte} {s t : State} (h : writeRegFlag x b f s = .next t)
    (hx : r ≠ x) (h15 : r ≠ 15) : t.getV r = s.getV r := by
  cases h
  exact ((s.setV x b).getV_setV_ne f h15).trans (s.getV_setV_ne b hx)

/-- Settles O46, by the shape of each meaning: a write to one register, a write and then the flag, the range of FX65,
the key of FX0A; every other instruction keeps the register file. -/
theorem onlyNamedRegistersAreWritten : Obligations.OnlyNamedRegistersAreWritten := by
  intro i s t r h hw
  cases i
  case ldImm | addImm | ldReg | ldVxDt => exact getV_of_writeReg h (ne_of_beq_false hw)
  case rnd => exact getV_of_writeReg (s := s.drawn) h (ne_of_beq_false hw)
  case addReg | subReg | shrReg | subnReg | shlReg =>
    obtain ⟨hx, h15⟩ := Bool.or_eq_false_iff.1 hw
    exact getV_of_writeRegFlag h (ne_of_beq_false hx) (ne_of_beq_false h15)
  case orReg | andReg | xorReg =>
    obtain ⟨hx, h15⟩ := Bool.or_eq_false_iff.1 hw
    have hflag : writeRegFlag _ _ 0 s = .next t := (writeRegLogic_eq _ _ s).symm.trans h
    exact getV_of_writeRegFlag hflag (ne_of_beq_false hx) (ne_of_beq_false h15)
  case drw =>
    obtain ⟨a, _, rfl⟩ | ⟨_, e⟩ := checked_next h
    · rfl
    · cases e
      exact State.getV_setV_ne _ _ (ne_of_beq_false hw)
  case loadRegs x =>
    obtain ⟨a, _, rfl⟩ | ⟨_, e⟩ := checked_next h
    · rfl
    · cases e
      exact (loadedRegs_getElem s x r).trans (if_neg (of_decide_eq_false hw))
  case ldVxK x =>
    obtain ⟨_, _, e⟩ | ⟨k, _, _, e⟩ | ⟨_, _, e⟩ | ⟨_, _, e⟩ := keyWaitWith_cases Config.keyClickSt x s <;>
      cases e.symm.trans h
    · rfl
    · exact s.getV_setV_ne _ (ne_of_beq_false hw)
    · rfl
    · rfl
  case ret => obtain ⟨_, rfl⟩ | ⟨w, _, rfl⟩ := execRet_next h <;> rfl
  case call => obtain ⟨_, rfl⟩ | ⟨_, rfl⟩ := execCall_next h <;> rfl
  case ldB | saveRegs =>
    obtain ⟨a, _, rfl⟩ | ⟨_, e⟩ := checked_next h
    · rfl
    · cases e; rfl
  case skp | sknp => cases h; rw [afterKeyAnswer_eq]; rfl
  all_goals
    cases h
    rfl

/-! ## Decoded instructions exist on the target (30_encoding.md R79) -/

theorem decodeZero_wellFormed {t : Target} {w : Word} {i : Instr} (h : decodeZero t w = .ok i) :
    i.wellFormed t = true := by
  unfold decodeZero at h
  split_ifs at h with _ _ _ hires _ hires <;> cases h
  · rfl
  · rfl
  · exact hires
  · exact hires

theorem decodeEight_wellFormed {t : Target} {w : Word} {i : Instr} (h : decodeEight w = .ok i) :
    i.wellFormed t = true := by
  unfold decodeEight at h
  split at h <;> cases h <;> rfl

theorem decodeE_wellFormed {t : Target} {w : Word} {i : Instr} (h : decodeE w = .ok i) :
    i.wellFormed t = true := by
  unfold decodeE at h
  split at h <;> cases h <;> rfl

theorem decodeF_wellFormed {t : Target} {w : Word} {i : Instr} (h : decodeF w = .ok i) :
    i.wellFormed t = true := by
  unfold decodeF at h
  split at h <;> cases h <;> rfl

/-- The decoder answers instructions of the target only (30_encoding.md R79). -/
theorem decode_wellFormed {t : Target} {w : Word} {i : Instr} (h : decode t w = .ok i) :
    i.wellFormed t = true := by
  unfold decode at h
  split at h
  case h_1 => exact decodeZero_wellFormed h
  case h_6 | h_10 => split at h <;> cases h; rfl
  case h_9 => exact decodeEight_wellFormed h
  case h_15 => exact decodeE_wellFormed h
  case h_16 => exact decodeF_wellFormed h
  all_goals
    cases h
    rfl

/-! ## What the writers do to the fields the invariant speaks of -/

/-- An instruction that latches a fault does nothing else (40_execution_cycle.md R101), and the latch is right about the
address (60_exceptions.md R171, R172); any other instruction leaves FAULT as it is. -/
theorem exec_fault_or_raise {i : Instr} {s t : State} (h : exec i s = .next t) :
    t.fault = s.fault ∨
    ∃ c a, t = s.raise c a ∧ (c = .memBounds → inMem a = false) ∧ (c ≠ .memBounds → a = 0) := by
  cases i
  case ret =>
    obtain ⟨_, rfl⟩ | ⟨w, _, rfl⟩ := execRet_next h
    · exact .inr ⟨_, _, rfl, fun e => (nomatch e), fun _ => rfl⟩
    · exact .inl rfl
  case call =>
    obtain ⟨_, rfl⟩ | ⟨_, rfl⟩ := execCall_next h
    · exact .inr ⟨_, _, rfl, fun e => (nomatch e), fun _ => rfl⟩
    · exact .inl rfl
  case drw | ldB | saveRegs | loadRegs =>
    obtain ⟨a, ha, rfl⟩ | ⟨_, e⟩ := checked_next h
    · exact .inr ⟨_, _, rfl, fun _ => inMem_of_firstBad ha, fun e => absurd rfl e⟩
    · cases e; exact .inl rfl
  all_goals exact .inl (exec_fault h nofun nofun nofun nofun nofun nofun)

/-- An instruction takes draws, it gives none back (log entry 3). -/
theorem exec_draws_le {i : Instr} {s t : State} (h : exec i s = .next t) : s.draws ≤ t.draws := by
  cases i
  case rnd => cases h; exact Nat.le_succ _
  case skp | sknp => cases h; rw [afterKeyAnswer_eq]; exact Nat.le_add_right _ _
  all_goals exact (exec_draws h nofun nofun nofun).ge

/-- SP stays in 0..15 (10_state.md R44): CALL faults before it counts past 15. -/
theorem exec_sp_le {i : Instr} {s t : State} (h : exec i s = .next t) (hs : s.sp.toNat ≤ 15) : t.sp.toNat ≤ 15 := by
  cases i
  case ret =>
    obtain ⟨_, rfl⟩ | ⟨w, h0, rfl⟩ := execRet_next h
    · exact hs
    · show (s.sp - 1).toNat ≤ 15
      bv_omega
  case call =>
    obtain ⟨_, rfl⟩ | ⟨hlt, rfl⟩ := execCall_next h
    · exact hs
    · show (s.sp + 1).toNat ≤ 15
      bv_omega
  all_goals rwa [exec_sp h nofun nofun]

/-- Entry 15 of the stack is never written (10_state.md R29): the last CALL that goes through pushes entry 14. -/
theorem exec_topEntry {i : Instr} {s t : State} (h : exec i s = .next t) : t.stack[15] = s.stack[15] := by
  cases i
  case call =>
    obtain ⟨_, rfl⟩ | ⟨hlt, rfl⟩ := execCall_next h
    · rfl
    · have hne : s.sp.toNat ≠ 15 := by omega
      have h16 : s.sp.toNat < 16 := by omega
      simp [h16, Vector.getElem_set_ne, hne]
  all_goals rw [exec_stack h nofun]

/-- DOUBLE is set on SUPERCHIP10 only (10_state.md R44): the other targets have no LOW. -/
theorem exec_doubleTarget {i : Instr} {s t : State} (h : exec i s = .next t) (hi : i.wellFormed s.target = true)
    (hs : s.double = true → s.target = .superchip10) : t.double = true → t.target = .superchip10 := by
  rw [exec_target h]
  cases i
  case low | high => exact fun _ => (hasHires_iff s.target).1 hi
  all_goals rwa [exec_double h nofun nofun]

/-- A store keeps the canonical form of memory (log entry 12). -/
theorem exec_memWf {i : Instr} {s t : State} (h : exec i s = .next t) (hs : s.mem.wf = true) : t.mem.wf = true := by
  obtain e | ⟨bs, e, _, hfits⟩ := exec_mem h
  · rwa [e]
  · rw [e]; exact writeBytes_wf hs hfits

/-! ## The grid (10_state.md R34) -/

/-- Every lit pixel lies in the top left `w × h` corner. -/
def FrameBuffer.within (w h : Nat) (fb : FrameBuffer) : Prop :=
  ∀ px py, fb.pixel px py = true → px < w ∧ py < h

theorem gridClean_iff_within (s : State) : s.gridClean ↔ s.fb.within s.q.physWidth s.q.physHeight := Iff.rfl

theorem FrameBuffer.within_blank (w h : Nat) : FrameBuffer.blank.within w h := by
  intro px py hlit
  rw [FrameBuffer.pixel_blank] at hlit
  cases hlit

theorem FrameBuffer.within_flip {w h px py : Nat} {fb : FrameBuffer} (hw : w ≤ 128) (hh : h ≤ 64)
    (hfb : fb.within w h) (hx : px < w) (hy : py < h) : (fb.flip px py).within w h := by
  intro qx qy hlit
  rw [FrameBuffer.pixel_flip (by omega) (by omega)] at hlit
  by_cases hq : (qx, qy) = (px, py)
  · cases hq; exact ⟨hx, hy⟩
  · exact hfb qx qy (by simpa [hq] using hlit)

theorem within_foldl_flipOne {w h : Nat} (hw : w ≤ 128) (hh : h ≤ 64) {ps : List (Nat × Nat)}
    (hps : ∀ p ∈ ps, p.1 < w ∧ p.2 < h) {acc : FrameBuffer × Bool} (hacc : acc.1.within w h) :
    (ps.foldl flipOne acc).1.within w h := by
  induction ps generalizing acc with
  | nil => exact hacc
  | cons p ps ih =>
    obtain ⟨⟨hx, hy⟩, hps⟩ := List.forall_mem_cons.1 hps
    exact ih hps (FrameBuffer.within_flip hw hh hacc hx hy)

/-- The physical grid of every target is part of the 128×64 one (log entry 15). -/
theorem physSize_le (t : Target) : t.quirks.physWidth ≤ 128 ∧ t.quirks.physHeight ≤ 64 := by
  cases t <;> decide

/-- The clipping of R150: a sprite's pixels lie on the logical screen. -/
theorem mem_spritePixels_clipped {sh : SpriteShape} {buf : List Byte} {w h x y : Nat} {p : Nat × Nat}
    (hp : p ∈ spritePixels false sh buf w h x y) : p.1 < w ∧ p.2 < h := by
  simp only [spritePixels, placePixel, Bool.false_eq_true, if_false, List.mem_flatMap, List.mem_filterMap,
    Option.ite_none_right_eq_some, Option.some.injEq] at hp
  obtain ⟨i, _, j, _, _, hin, rfl⟩ := hp
  exact hin

/-- The physical pixels of a logical pixel of the screen lie on the physical grid (44_display.md R141, R151). -/
theorem physPixels_lt {s : State} {p q : Nat × Nat} (hp : p.1 < s.logicalWidth ∧ p.2 < s.logicalHeight)
    (hq : q ∈ physPixels s.double p) : q.1 < s.q.physWidth ∧ q.2 < s.q.physHeight := by
  cases hd : s.double with
  | false =>
    simp only [State.logicalWidth, State.logicalHeight, hd, Bool.false_eq_true, if_false] at hp
    simp only [physPixels, hd, Bool.false_eq_true, if_false, List.mem_singleton] at hq
    rwa [hq]
  | true =>
    simp only [State.logicalWidth, State.logicalHeight, hd, if_true] at hp
    simp only [physPixels, hd, if_true, List.mem_cons, List.not_mem_nil, or_false] at hq
    obtain rfl | rfl | rfl | rfl := hq <;> constructor <;> dsimp only <;> omega

/-- A draw lights pixels of the target's grid only. -/
theorem within_blit {s : State} (x y : Reg) (n : BitVec 4) (hs : s.gridClean) :
    (blit s.double s.fb (drawnPixels Params.wrapPixels x y n s)).1.within s.q.physWidth s.q.physHeight := by
  obtain ⟨hw, hh⟩ := physSize_le s.target
  rw [blit_eq_foldl]
  refine within_foldl_flipOne hw hh (fun q hq => ?_) hs
  obtain ⟨p, hp, hq⟩ := List.mem_flatMap.1 hq
  exact physPixels_lt (mem_spritePixels_clipped hp) hq

theorem exec_gridClean {i : Instr} {s t : State} (h : exec i s = .next t) (hs : s.gridClean) : t.gridClean := by
  rw [gridClean_iff_within, State.q, exec_target h]
  cases i
  case cls => cases h; exact FrameBuffer.within_blank _ _
  case drw x y n =>
    obtain ⟨a, _, rfl⟩ | ⟨_, e⟩ := checked_next h
    · exact hs
    · cases e; exact within_blit x y n hs
  all_goals rwa [exec_fb h nofun nofun]

/-! ## Latches -/

theorem faultPrecise_of_none {s : State} (h : s.fault = none) : s.faultPrecise := fun _ e => nomatch h.symm.trans e

theorem heldAtKeyWait_of_idle {s : State} (h : s.kw = .idle) : s.heldAtKeyWait := fun e => nomatch h.symm.trans e

/-- FX0A records its key in the register it names and stays where it is (45_timers_keys.md R162); while it holds the
key, no other instruction can come. -/
theorem exec_heldAtKeyWait {i : Instr} {s t : State} (h : exec i s = .next t) (hf : firstBad s.pc 2 = none)
    (hd : decode s.target (fetchWord s) = .ok i) (hs : s.heldAtKeyWait) : t.heldAtKeyWait := by
  by_cases hi : ∃ x, i = .ldVxK x
  · obtain ⟨x, rfl⟩ := hi
    obtain ⟨_, _, e⟩ | ⟨k, _, _, e⟩ | ⟨_, _, e⟩ | ⟨_, _, e⟩ := keyWaitWith_cases Config.keyClickSt x s <;>
      cases e.symm.trans h
    · exact hs
    · exact fun _ => ⟨hf, x, hd, (s.getV_setV x x (keyByte k)).trans (if_pos rfl)⟩
    · exact hs
    · exact heldAtKeyWait_of_idle rfl
  · intro hk
    obtain ⟨_, x, hx, _⟩ := hs ((exec_kw h fun x e => hi ⟨x, e⟩).symm.trans hk)
    cases hd.symm.trans hx
    exact absurd ⟨x, rfl⟩ hi

/-! ## The invariant in two halves -/

/-- The half of the invariant that a cycle can touch: memory, stack, screen and the two latches. -/
structure State.CycleInv (s : State) : Prop where
  memWf : s.mem.wf = true
  spRange : s.sp.toNat ≤ 15
  topEntry : s.stack[15] = 0
  doubleTarget : s.double = true → s.target = .superchip10
  grid : s.gridClean
  faultPrecise : s.faultPrecise
  held : s.heldAtKeyWait

/-- The half of the invariant that speaks of the scheduler. -/
structure State.ScheduleInv (s : State) : Prop where
  creditRange : 0 ≤ s.credit ∧ s.credit < 1
  clock : s.clockForward
  faultStops : s.fault.isSome = true ↔ s.phase = .stopped .fault
  loadIdle : s.phase = .load → s.kw = .idle

theorem State.inv_iff (s : State) : s.Inv ↔ s.CycleInv ∧ s.ScheduleInv :=
  ⟨fun ⟨memWf, spRange, topEntry, doubleTarget, grid, creditRange, clock, faultStops, faultPrecise, held, loadIdle⟩ =>
    ⟨⟨memWf, spRange, topEntry, doubleTarget, grid, faultPrecise, held⟩, ⟨creditRange, clock, faultStops, loadIdle⟩⟩,
  fun ⟨⟨memWf, spRange, topEntry, doubleTarget, grid, faultPrecise, held⟩, ⟨creditRange, clock, faultStops, loadIdle⟩⟩ =>
    ⟨memWf, spRange, topEntry, doubleTarget, grid, creditRange, clock, faultStops, faultPrecise, held, loadIdle⟩⟩

/-- The first half does not read the timers, VBL, the input, the scheduler's fields and the events. -/
theorem State.CycleInv.congr {s t : State} (hs : s.CycleInv)
    (ht : t = { s with
      dt := t.dt, st := t.st, vbl := t.vbl, keys := t.keys, lastKey := t.lastKey, exit := t.exit,
      toneReq := t.toneReq, tLast := t.tLast, credit := t.credit, phase := t.phase, draws := t.draws, out := t.out }) :
    t.CycleInv := by
  obtain ⟨memWf, spRange, topEntry, doubleTarget, grid, faultPrecise, held⟩ := hs
  rw [ht]
  exact ⟨memWf, spRange, topEntry, doubleTarget, grid, faultPrecise, held⟩

/-- Latching a fault keeps the first half when the latch is right about the address. -/
theorem State.CycleInv.raise {s : State} (hs : s.CycleInv) {c : FaultCause} {a : Word}
    (hmem : c = .memBounds → inMem a = false) (hstack : c ≠ .memBounds → a = 0) : (s.raise c a).CycleInv := by
  obtain ⟨memWf, spRange, topEntry, doubleTarget, grid, _, held⟩ := hs
  refine ⟨memWf, spRange, topEntry, doubleTarget, grid, fun f hf => ?_, held⟩
  cases hf
  exact ⟨rfl, hmem, hstack⟩

theorem State.CycleInv.cpuReset {s : State} (hs : s.CycleInv) : s.cpuReset.CycleInv where
  memWf := hs.memWf
  spRange := Nat.zero_le 15
  topEntry := rfl
  doubleTarget := hs.doubleTarget
  grid := hs.grid
  faultPrecise := faultPrecise_of_none rfl
  held := heldAtKeyWait_of_idle rfl

/-- Every instruction of the target keeps the first half, at the PC its word was fetched from. -/
theorem exec_cycleInv {i : Instr} {s t : State} (hs : s.CycleInv) (hfault : s.fault = none)
    (hf : firstBad s.pc 2 = none) (hd : decode s.target (fetchWord s) = .ok i) (h : exec i s = .next t) :
    t.CycleInv := by
  obtain e | ⟨c, a, rfl, hmem, hstack⟩ := exec_fault_or_raise h
  · exact
      { memWf := exec_memWf h hs.memWf
        spRange := exec_sp_le h hs.spRange
        topEntry := (exec_topEntry h).trans hs.topEntry
        doubleTarget := exec_doubleTarget h (decode_wellFormed hd) hs.doubleTarget
        grid := exec_gridClean h hs.grid
        faultPrecise := faultPrecise_of_none (e.trans hfault)
        held := exec_heldAtKeyWait h hf hd hs.held }
  · exact hs.raise hmem hstack

/-- An Invalid word is stepped over (40_execution_cycle.md R100): the PC moves, so no key may be held there. -/
theorem execInvalid_cycleInv {e : Invalid} {s t : State} (hs : s.CycleInv) (hfault : s.fault = none)
    (hd : decode s.target (fetchWord s) = .error e) (h : execInvalid (fetchWord s) s = .next t) : t.CycleInv := by
  cases h
  obtain ⟨memWf, spRange, topEntry, doubleTarget, grid, _, held⟩ := hs
  refine ⟨memWf, spRange, topEntry, doubleTarget, grid, faultPrecise_of_none hfault, fun hk => ?_⟩
  obtain ⟨_, x, hx, _⟩ := held hk
  cases hd.symm.trans hx

theorem clockSys_cycleInv {s t : State} (hs : s.CycleInv) (hfault : s.fault = none) (h : clockSys s = .next t) :
    t.CycleInv := by
  obtain ⟨_, e⟩ | ⟨a, _, ha, e⟩ | ⟨i, ⟨_, hf⟩, hd, e⟩ | ⟨_, _, hd, e⟩ := clockSys_cases s <;> rw [e] at h
  · cases h; exact hs
  · cases h; exact hs.raise (fun _ => inMem_of_firstBad ha) (fun e => absurd rfl e)
  · exact exec_cycleInv hs hfault hf hd h
  · exact execInvalid_cycleInv hs hfault hd h

/-- A cycle does not touch the credit and `T_LAST`, and gives no draw back. -/
theorem clockSys_schedule {s t : State} (h : clockSys s = .next t) :
    t.credit = s.credit ∧ t.tLast = s.tLast ∧ s.draws ≤ t.draws := by
  obtain ⟨_, e⟩ | ⟨a, _, _, e⟩ | ⟨i, _, _, e⟩ | ⟨_, _, _, e⟩ := clockSys_cases s <;> rw [e] at h
  · cases h; exact ⟨rfl, rfl, le_rfl⟩
  · cases h; exact ⟨rfl, rfl, le_rfl⟩
  · have hframe := exec_frame h
    exact ⟨(congrArg State.credit hframe :), (congrArg State.tLast hframe :), exec_draws_le h⟩
  · cases h; exact ⟨rfl, rfl, le_rfl⟩

/-! ## The wall clock through the scheduler's events -/

theorem now_le_drawn (s : State) : Config.now s.draws ≤ Config.now s.drawn.draws :=
  Config.now_mono (Nat.le_succ s.draws)

/-- Outside a frame the invariant of the clock is about `T_LAST` only. -/
theorem clockForward_of_no_frame {s : State} (hp : s.phase.firedAt = none) (h : s.tLast ≤ Config.now s.draws) :
    s.clockForward :=
  ⟨h, fun _ hu => nomatch hp.symm.trans hu⟩

/-- The invariant of the clock survives more draws as long as `T_LAST` stays and no new frame fires. -/
theorem State.clockForward.later {s t : State} (hs : s.clockForward) (hl : t.tLast = s.tLast)
    (hd : s.draws ≤ t.draws) (hp : ∀ u, t.phase.firedAt = some u → s.phase.firedAt = some u) : t.clockForward := by
  obtain ⟨hlast, hfired⟩ := hs
  have hnow := Config.now_mono hd
  refine ⟨hl ▸ hlast.trans hnow, fun u hu => ?_⟩
  obtain ⟨hperiod, hu⟩ := hfired u (hp u hu)
  exact ⟨hl ▸ hperiod, hu.trans hnow⟩

/-! ## Every event keeps the invariant -/

theorem State.Inv.fault_none {s : State} (hs : s.Inv) (hp : s.phase ≠ .stopped .fault) : s.fault = none := by
  by_contra hne
  exact hp (hs.faultStops.1 (Option.isSome_iff_ne_none.2 hne))

/-- A running loop's scheduler half: no fault is latched, and the ROM is loaded. -/
theorem scheduleInv_of_running {s : State} (hfault : s.fault = none) (hstop : s.phase ≠ .stopped .fault)
    (hload : s.phase ≠ .load) (hcredit : 0 ≤ s.credit ∧ s.credit < 1) (hclock : s.clockForward) : s.ScheduleInv where
  creditRange := hcredit
  clock := hclock
  faultStops := by simp [hfault, hstop]
  loadIdle := fun h => absurd h hload

section
variable {s : State} (hs : s.Inv)
include hs

theorem loadRom_inv {rom : Option (List Byte)} {t : State} (hp : s.phase = .load) (h : loadRom rom s = .next t) :
    t.Inv := by
  obtain ⟨r, _, _, hlen, rfl⟩ := loadRom_next h
  have hfault := hs.fault_none (by simp [hp])
  have hfits : Params.loadAddress.toNat + r.length ≤ 4096 := by
    have : Params.loadAddress.toNat = 512 := rfl
    omega
  refine (State.inv_iff _).2 ⟨?_, scheduleInv_of_running hfault nofun nofun hs.creditRange
    (clockForward_of_no_frame rfl hs.clock.1)⟩
  exact
    { memWf := writeBytes_wf hs.memWf hfits
      spRange := hs.spRange
      topEntry := hs.topEntry
      doubleTarget := hs.doubleTarget
      grid := hs.grid
      faultPrecise := faultPrecise_of_none hfault
      held := heldAtKeyWait_of_idle (hs.loadIdle hp) }

theorem enterRun_inv (hp : s.phase = .start) : (enterRun (Config.now s.draws) s).drawn.Inv := by
  have hfault := hs.fault_none (by simp [hp])
  obtain ⟨hcycle, _⟩ := (State.inv_iff s).1 hs
  exact (State.inv_iff _).2 ⟨hcycle.congr rfl, scheduleInv_of_running hfault nofun nofun ⟨le_rfl, one_pos⟩
    (clockForward_of_no_frame rfl (now_le_drawn s))⟩

/-- A requested reset leaves the scheduler's fields alone but for the phase; what follows is outside a frame. -/
theorem cpuReset_drawn_inv {p : Phase} (hfired : p.firedAt = none) (hstop : p ≠ .stopped .fault) (hload : p ≠ .load) :
    ((s.cpuReset.goto p).drawn).Inv := by
  obtain ⟨hcycle, hschedule⟩ := (State.inv_iff s).1 hs
  exact (State.inv_iff _).2 ⟨hcycle.cpuReset.congr rfl, scheduleInv_of_running rfl hstop hload hschedule.creditRange
    (clockForward_of_no_frame hfired (hschedule.clock.1.trans (now_le_drawn s)))⟩

theorem drawn_inv : s.drawn.Inv := by
  obtain ⟨hcycle, hschedule⟩ := (State.inv_iff s).1 hs
  obtain ⟨creditRange, clock, faultStops, loadIdle⟩ := hschedule
  exact (State.inv_iff _).2 ⟨hcycle.congr rfl,
    ⟨creditRange, clock.later rfl (Nat.le_succ _) fun _ => id, faultStops, loadIdle⟩⟩

/-- A frame that fires keeps the fractional part of the credit, and fires no earlier than one period after `T_LAST`
(60_exceptions.md R197, R198). -/
theorem iterate_drawn_inv (hp : s.phase = .wait) : (iterate (Config.now s.draws) s).drawn.Inv := by
  unfold iterate
  split
  · next hfire =>
    have hfault := hs.fault_none (by simp [hp])
    obtain ⟨hcycle, _⟩ := (State.inv_iff s).1 hs
    refine (State.inv_iff _).2 ⟨hcycle.congr rfl, scheduleInv_of_running hfault nofun nofun ?_ ?_⟩
    · exact ⟨Int.fract_nonneg _, Int.fract_lt_one _⟩
    · refine ⟨hs.clock.1.trans (now_le_drawn s), fun u hu => ?_⟩
      cases hu
      exact ⟨le_sub_iff_add_le'.1 hfire, now_le_drawn s⟩
  · exact drawn_inv hs

theorem betweenFrames_inv (hp : s.phase = .wait) : (betweenFrames s).Inv := by
  unfold betweenFrames betweenFramesWith
  split
  · have hreset := cpuReset_drawn_inv hs (p := .wait) rfl nofun nofun
    rwa [← hp] at hreset
  · exact iterate_drawn_inv hs hp

/-- A slot ends with the loop stopped exactly when its cycle latched a fault (60_exceptions.md R203). -/
theorem slot_inv {n : Nat} {u : Rat} {t : State} (hp : s.phase = .frame (n + 1) u) (h : slot n u s = .next t) :
    t.Inv := by
  obtain ⟨s1, h1, rfl⟩ := slot_next h
  obtain ⟨hcycle, hschedule⟩ := (State.inv_iff s).1 hs
  have hcycle1 := clockSys_cycleInv hcycle (hs.fault_none (by simp [hp])) h1
  obtain ⟨hcredit, hlast, hdraws⟩ := clockSys_schedule h1
  have hrange : 0 ≤ s1.credit ∧ s1.credit < 1 := hcredit ▸ hschedule.creditRange
  unfold afterCycle
  split
  · next f hf =>
    refine (State.inv_iff _).2 ⟨hcycle1.congr rfl, hrange, hschedule.clock.later hlast hdraws nofun, ?_, nofun⟩
    simp [hf]
  · next hf =>
    rw [clockSound_eq]
    refine (State.inv_iff _).2 ⟨hcycle1.congr rfl, scheduleInv_of_running hf nofun nofun hrange
      (hschedule.clock.later hlast hdraws fun v hv => ?_)⟩
    rw [hp]
    exact hv

theorem clockBus_inv {u : Rat} (p : Poll) (hp : s.phase = .frame 0 u) : ((clockBus p s).drawn.goto (.tick u)).Inv := by
  obtain ⟨evs, e⟩ := clockBus_frame p s
  obtain ⟨hcycle, hschedule⟩ := (State.inv_iff s).1 hs
  have hfault := hs.fault_none (by simp [hp])
  rw [e]
  refine (State.inv_iff _).2 ⟨hcycle.congr rfl, scheduleInv_of_running hfault nofun nofun hschedule.creditRange
    (hschedule.clock.later rfl (Nat.le_succ _) fun v hv => ?_)⟩
  rw [hp]
  exact hv

theorem endFrame_inv {u : Rat} (hp : s.phase = .tick u) : (endFrame u s).Inv := by
  obtain ⟨hcycle, hschedule⟩ := (State.inv_iff s).1 hs
  have hfault := hs.fault_none (by simp [hp])
  obtain ⟨_, hu⟩ := hschedule.clock.2 u (by rw [hp]; rfl)
  refine (State.inv_iff _).2 ⟨hcycle.congr rfl, ?_⟩
  simp only [endFrame]
  split <;>
    exact scheduleInv_of_running hfault nofun nofun hschedule.creditRange (clockForward_of_no_frame rfl hu)

theorem afterStop_inv : (afterStop s).Inv := by
  unfold afterStop afterStopWith
  split
  · exact cpuReset_drawn_inv hs rfl nofun nofun
  · exact drawn_inv hs

end

/-- Settles O4, event by event: a step is one of the scheduler's events, and each of them keeps both halves of the
invariant; the cycle of a slot does so because each writer of a field does. -/
theorem everyStepKeepsInv : Obligations.EveryStepKeepsInv := by
  intro s t hs h
  obtain ⟨hp, h⟩ | ⟨hp, rfl⟩ | ⟨hp, rfl⟩ | ⟨n, u, hp, h⟩ | ⟨u, hp, rfl⟩ | ⟨u, hp, rfl⟩ | ⟨w, _, rfl⟩ := step_cases h
  · exact loadRom_inv hs hp h
  · exact enterRun_inv hs hp
  · exact betweenFrames_inv hs hp
  · exact slot_inv hs hp h
  · exact clockBus_inv hs _ hp
  · exact endFrame_inv hs hp
  · exact afterStop_inv hs

/-! ## Construction and the CPU reset (10_state.md R46, R47) -/

/-- Settles O1: the vectors read as 0 everywhere, the rest is the definition. -/
theorem cpuResetWritesExactly : Obligations.CpuResetWritesExactly := by
  intro s
  refine ⟨fun r => ?_, fun k h => ?_, rfl⟩
  · simp [State.getV]
  · simp

/-- Above the 80 bytes of the font memory starts at 0 (20_memory.md R61). -/
theorem initialByte_of_ge {a : Nat} (h : 80 ≤ a) : Params.initialByte a = 0 :=
  List.getD_eq_default _ _ h

/-- P_SCHIP_START_HIRES is 0 (log entry 16), so DOUBLE starts set where it exists. -/
theorem construct_double (t : Target) : (State.construct t).double = true ↔ t = .superchip10 := by
  simp [State.construct, Params.schipStartHires]

/-- Settles O2: memory lists nothing at construction, so it reads as the font and zeros. -/
theorem constructionMakesMemoryAndScreen : Obligations.ConstructionMakesMemoryAndScreen := by
  intro t
  exact ⟨fun a _ => rfl, fun a h => initialByte_of_ge h, FrameBuffer.pixel_blank, construct_double t⟩

/-- Settles O3, clause by clause. -/
theorem constructionMeetsInv : Obligations.ConstructionMeetsInv := fun t =>
  { memWf := construct_mem_wf t
    spRange := Nat.zero_le _
    topEntry := rfl
    doubleTarget := (construct_double t).1
    grid := FrameBuffer.within_blank _ _
    creditRange := ⟨le_rfl, one_pos⟩
    clock := clockForward_of_no_frame rfl le_rfl
    faultStops := ⟨fun h => (nomatch h), fun h => (nomatch h)⟩
    faultPrecise := faultPrecise_of_none rfl
    held := heldAtKeyWait_of_idle rfl
    loadIdle := fun _ => rfl }

/-- Settles O19: CALL is past its limit, and RET looks up the entry SP − 1, which is 15 or not there. -/
theorem stackPointerOutOfRangeIsSafe : Obligations.StackPointerOutOfRangeIsSafe := by
  intro s nnn
  refine ⟨fun h => if_pos (Nat.le_of_lt h), fun h => ?_, fun h => ?_⟩
  · simp [exec, execRet, h, State.setSp, State.setPc]
  · have h0 : s.sp ≠ 0 := by rintro e; simp [e] at h
    have hk : 16 ≤ (s.sp - 1).toNat := by bv_omega
    simp only [exec, execRet, if_neg h0, Vector.getElem?_eq_none hk]

end Sys2Proof.Machine
end

section
/-! PROOFS. The family 20_memory.md: which bytes of memory an instruction leaves as they are. -/

namespace Sys2Proof.Machine

/-- Settles O47: the instruction keeps memory, or it writes exactly its `storedLen` bytes from `I` without passing the
end of memory, so the address misses every byte written. -/
theorem memoryOutsideTheStoredRangeIsUnchanged : Obligations.MemoryOutsideTheStoredRangeIsUnchanged := by
  intro i s t a h ha
  obtain hkept | ⟨bs, hstored, hlen, hfits⟩ := exec_mem h
  · rw [hkept]
  · rw [← hlen] at ha
    rw [hstored]
    exact get_writeBytes_outside hfits ha

end Sys2Proof.Machine
end

section
/-! PROOFS. The family 30_encoding.md: the fields of an encoded word, the word from its fields, then the decoder, the
encoder and the opcode map of R84 against each other. -/

namespace Sys2Proof

open Sys2Proof.Machine Sys2Proof.Laws

/-! ## A register index and its 4 bits -/

theorem ofNat_nibble (x : Reg) : Fin.ofNat 16 (nibble x).toNat = x := by
  simp [nibble]

theorem nibble_ofNat (b : BitVec 4) : nibble (Fin.ofNat 16 b.toNat) = b := by
  simp [nibble, Nat.mod_eq_of_lt b.isLt]

/-! ## The fields of an encoded word (30_encoding.md R74, R75) -/

section Fields

variable (h : BitVec 4) (x y : Reg) (n : BitVec 4) (nn : Byte) (nnn : BitVec 12)

@[simp] theorem opH_encFA : opH (encFA h nnn) = h := BitVec.extractLsb'_append_eq_left

@[simp] theorem opNNN_encFA : opNNN (encFA h nnn) = nnn := BitVec.extractLsb'_append_eq_right

@[simp] theorem opH_encFI : opH (encFI h x nn) = h :=
  (BitVec.extractLsb'_append_eq_of_le (by decide)).trans BitVec.extractLsb'_append_eq_left

@[simp] theorem opX_encFI : opX (encFI h x nn) = x := by
  have hfield : (encFI h x nn).extractLsb' 8 4 = nibble x :=
    (BitVec.extractLsb'_append_eq_of_le (by decide)).trans BitVec.extractLsb'_append_eq_right
  rw [opX, hfield, ofNat_nibble]

@[simp] theorem opNN_encFI : opNN (encFI h x nn) = nn := BitVec.extractLsb'_append_eq_right

/-- The FR format is the FI format with Y and the last nibble as the byte NN. -/
theorem encFR_eq_encFI : encFR h x y n = encFI h x (nibble y ++ n) := BitVec.append_assoc

@[simp] theorem opH_encFR : opH (encFR h x y n) = h := by rw [encFR_eq_encFI, opH_encFI]

@[simp] theorem opX_encFR : opX (encFR h x y n) = x := by rw [encFR_eq_encFI, opX_encFI]

@[simp] theorem opY_encFR : opY (encFR h x y n) = y := by
  have hfield : (encFR h x y n).extractLsb' 4 4 = nibble y :=
    (BitVec.extractLsb'_append_eq_of_le (by decide)).trans BitVec.extractLsb'_append_eq_right
  rw [opY, hfield, ofNat_nibble]

@[simp] theorem opN_encFR : opN (encFR h x y n) = n := BitVec.extractLsb'_append_eq_right

theorem encFR_zero_zero : encFR h 0 0 n = h ++ 0#8 ++ n := congrArg (· ++ n) BitVec.append_assoc

end Fields

/-! ## A word is the encoding of its fields -/

theorem encFA_fields (w : Word) : encFA (opH w) (opNNN w) = w :=
  BitVec.extractLsb'_append_extractLsb' (w := 4) (len := 12)

theorem nibble_opY_append_opN (w : Word) : nibble (opY w) ++ opN w = opNN w := by
  rw [opY, nibble_ofNat]
  exact BitVec.extractLsb'_append_extractLsb'_eq_extractLsb' (start₁ := 0) (len₁ := 4) rfl

theorem nibble_opX_append_opNN (w : Word) : nibble (opX w) ++ opNN w = opNNN w := by
  rw [opX, nibble_ofNat]
  exact BitVec.extractLsb'_append_extractLsb'_eq_extractLsb' (start₁ := 0) (len₁ := 8) rfl

theorem encFI_fields (w : Word) : encFI (opH w) (opX w) (opNN w) = w := by
  calc
    encFI (opH w) (opX w) (opNN w) = encFA (opH w) (nibble (opX w) ++ opNN w) := BitVec.append_assoc
    _ = w := by rw [nibble_opX_append_opNN, encFA_fields]

theorem encFR_fields (w : Word) : encFR (opH w) (opX w) (opY w) (opN w) = w := by
  rw [encFR_eq_encFI, nibble_opY_append_opN, encFI_fields]

/-! ## Decode of encode (30_encoding.md R91) -/

/-- The decoder reads back the fields the encoder wrote, and they lead it to the branch of the instruction. -/
theorem decode_encode {t : Target} {i : Instr} (hi : i.wellFormed t = true) : decode t (encode i) = .ok i := by
  cases i
  case cls | ret => rfl
  case low | high => exact if_pos hi
  case ldReg | orReg | andReg | xorReg | addReg | subReg | shrReg | subnReg | shlReg =>
    simp [encode, decode, decodeEight]
  case skp | sknp => simp [encode, decode, decodeE]
  case ldVxDt | ldVxK | ldDtVx | ldStVx | addI | ldF | ldB | saveRegs | loadRegs =>
    simp [encode, decode, decodeF]
  case jp | call | ldI | jpV0 | seImm | sneImm | ldImm | addImm | rnd | seReg | sneReg | drw => simp [encode, decode]

/-! ## Encode of decode (30_encoding.md R78, R91) -/

section FromFields

variable {w : Word} {h n : BitVec 4} {nn : Byte}

theorem encFA_of_fields (hh : opH w = h) : encFA h (opNNN w) = w := hh ▸ encFA_fields w

theorem encFI_of_fields (hh : opH w = h) (hnn : opNN w = nn) : encFI h (opX w) nn = w := hh ▸ hnn ▸ encFI_fields w

theorem encFR_of_fields (hh : opH w = h) (hn : opN w = n) : encFR h (opX w) (opY w) n = w :=
  hh ▸ hn ▸ encFR_fields w

end FromFields

section EncodeDecoded

variable {t : Target} {w : Word} {i : Instr}

theorem encode_of_decodeZero (h : decodeZero t w = .ok i) : encode i = w := by
  unfold decodeZero at h
  split_ifs at h with hcls hret hlow _ hhigh <;> cases h
  · exact hcls.symm
  · exact hret.symm
  · exact hlow.symm
  · exact hhigh.symm

theorem encode_of_decodeEight (hh : opH w = 0x8) (h : decodeEight w = .ok i) : encode i = w := by
  unfold decodeEight at h
  split at h
  case h_10 => cases h
  all_goals
    next hn =>
      cases h
      exact encFR_of_fields hh (BitVec.eq_of_toNat_eq hn)

theorem encode_of_decodeE (hh : opH w = 0xE) (h : decodeE w = .ok i) : encode i = w := by
  unfold decodeE at h
  split at h
  case h_3 => cases h
  all_goals
    next hnn =>
      cases h
      exact encFI_of_fields hh (BitVec.eq_of_toNat_eq hnn)

theorem encode_of_decodeF (hh : opH w = 0xF) (h : decodeF w = .ok i) : encode i = w := by
  unfold decodeF at h
  split at h
  case h_10 => cases h
  all_goals
    next hnn =>
      cases h
      exact encFI_of_fields hh (BitVec.eq_of_toNat_eq hnn)

/-- Each branch of the decoder has read the fixed fields of its instruction, and takes the operands from the word. -/
theorem encode_of_decode (h : decode t w = .ok i) : encode i = w := by
  unfold decode at h
  split at h
  case h_1 => exact encode_of_decodeZero h
  case h_9 hh => exact encode_of_decodeEight (BitVec.eq_of_toNat_eq hh) h
  case h_15 hh => exact encode_of_decodeE (BitVec.eq_of_toNat_eq hh) h
  case h_16 =>
    have hh : (opH w).toNat = 0xF := by
      have hlt := (opH w).isLt
      simp only [imp_false] at *
      omega
    exact encode_of_decodeF (BitVec.eq_of_toNat_eq hh) h
  case h_6 hh | h_10 hh =>
    split_ifs at h with hn
    cases h
    exact encFR_of_fields (BitVec.eq_of_toNat_eq hh) hn
  case h_2 hh | h_3 hh | h_11 hh | h_12 hh =>
    cases h
    exact encFA_of_fields (BitVec.eq_of_toNat_eq hh)
  case h_14 hh =>
    cases h
    exact encFR_of_fields (BitVec.eq_of_toNat_eq hh) rfl
  all_goals
    next hh =>
      cases h
      exact encFI_of_fields (BitVec.eq_of_toNat_eq hh) rfl

end EncodeDecoded

/-! ## The rows of the opcode map (30_encoding.md R84)

The masks pick out fields: what `Laws.encFA_mask` and its siblings say of an encoded word, read backwards. -/

section Masks

variable {w : Word} {h n : BitVec 4} {nn : Byte}

theorem opH_of_mask (hw : w &&& 0xF000 = h ++ 0#12) : opH w = h := by
  have hfields : w &&& 0xF000 = opH w ++ 0#12 := by
    conv_lhs => rw [← encFA_fields w]
    exact encFA_mask _ _
  have heq : encFA (opH w) 0 = encFA h 0 := hfields.symm.trans hw
  simpa using congrArg opH heq

theorem opH_opNN_of_mask (hw : w &&& 0xF0FF = h ++ 0#4 ++ nn) : opH w = h ∧ opNN w = nn := by
  have hfields : w &&& 0xF0FF = opH w ++ 0#4 ++ opNN w := by
    conv_lhs => rw [← encFI_fields w]
    exact encFS_mask _ _ _
  have heq : encFI (opH w) 0 (opNN w) = encFI h 0 nn := hfields.symm.trans hw
  exact ⟨by simpa using congrArg opH heq, by simpa using congrArg opNN heq⟩

theorem opH_opN_of_mask (hw : w &&& 0xF00F = h ++ 0#8 ++ n) : opH w = h ∧ opN w = n := by
  have hfields : w &&& 0xF00F = opH w ++ 0#8 ++ opN w := by
    conv_lhs => rw [← encFR_fields w]
    exact encFR_mask _ _ _ _
  have heq : encFR (opH w) 0 0 (opN w) = encFR h 0 0 n := by
    rw [encFR_zero_zero, encFR_zero_zero, ← hfields, hw]
  exact ⟨by simpa using congrArg opH heq, by simpa using congrArg opN heq⟩

theorem encFA_of_mask (hw : w &&& 0xF000 = h ++ 0#12) : encFA h (opNNN w) = w :=
  encFA_of_fields (opH_of_mask hw)

theorem encFI_of_mask (hw : w &&& 0xF000 = h ++ 0#12) : encFI h (opX w) (opNN w) = w :=
  encFI_of_fields (opH_of_mask hw) rfl

theorem encFD_of_mask (hw : w &&& 0xF000 = h ++ 0#12) : encFR h (opX w) (opY w) (opN w) = w :=
  encFR_of_fields (opH_of_mask hw) rfl

theorem encFS_of_mask (hw : w &&& 0xF0FF = h ++ 0#4 ++ nn) : encFI h (opX w) nn = w :=
  (opH_opNN_of_mask hw).elim encFI_of_fields

theorem encFR_of_mask (hw : w &&& 0xF00F = h ++ 0#8 ++ n) : encFR h (opX w) (opY w) n = w :=
  (opH_opN_of_mask hw).elim encFR_of_fields

theorem eq_of_full_mask {p : Word} (hw : w &&& 0xFFFF = p) : p = w :=
  hw.symm.trans (BitVec.and_allOnes (x := w))

end Masks

theorem row_mem_opTable (i : Instr) : i.row ∈ opTable := by
  cases i <;> (dsimp only [Instr.row]; decide)

/-- The pattern of a row is itself the word of an instruction of that row. -/
theorem exists_row_eq {r : OpRow} (hr : r ∈ opTable) : ∃ i : Instr, i.row = r := by
  have hpatterns : ∀ r ∈ opTable, (decode .superchip10 r.pattern).map Instr.row = .ok r := by decide
  have hrow := hpatterns r hr
  cases hd : decode .superchip10 r.pattern with
  | ok i => exact ⟨i, by simpa [hd, Except.map] using hrow⟩
  | error e => simp [hd, Except.map] at hrow

open EncodeMatchesRow in
/-- The family EncodeMatchesRow holds of every instruction. -/
theorem encodeMatchesRow (i : Instr) : Statement i := by
  cases i <;>
    simp only [cls, ret, low, high, jp, call, seImm, sneImm, seReg, sneReg, ldImm, addImm, ldReg, orReg, andReg, xorReg,
      addReg, subReg, shrReg, subnReg, shlReg, ldI, jpV0, rnd, drw, skp, sknp, ldVxDt, ldVxK, ldDtVx, ldStVx, addI, ldF,
      ldB, saveRegs, loadRegs]

/-- A word with the fixed bits of a row is the encoding of that row's instruction on the fields of the word. -/
theorem exists_encode_of_mask {w : Word} :
    (i : Instr) → w &&& i.row.mask = i.row.pattern → ∃ j : Instr, j.row = i.row ∧ encode j = w
  | .cls, hw => ⟨.cls, rfl, eq_of_full_mask hw⟩
  | .ret, hw => ⟨.ret, rfl, eq_of_full_mask hw⟩
  | .low, hw => ⟨.low, rfl, eq_of_full_mask hw⟩
  | .high, hw => ⟨.high, rfl, eq_of_full_mask hw⟩
  | .jp _, hw => ⟨.jp (opNNN w), rfl, encFA_of_mask hw⟩
  | .call _, hw => ⟨.call (opNNN w), rfl, encFA_of_mask hw⟩
  | .seImm _ _, hw => ⟨.seImm (opX w) (opNN w), rfl, encFI_of_mask hw⟩
  | .sneImm _ _, hw => ⟨.sneImm (opX w) (opNN w), rfl, encFI_of_mask hw⟩
  | .seReg _ _, hw => ⟨.seReg (opX w) (opY w), rfl, encFR_of_mask hw⟩
  | .sneReg _ _, hw => ⟨.sneReg (opX w) (opY w), rfl, encFR_of_mask hw⟩
  | .ldImm _ _, hw => ⟨.ldImm (opX w) (opNN w), rfl, encFI_of_mask hw⟩
  | .addImm _ _, hw => ⟨.addImm (opX w) (opNN w), rfl, encFI_of_mask hw⟩
  | .ldReg _ _, hw => ⟨.ldReg (opX w) (opY w), rfl, encFR_of_mask hw⟩
  | .orReg _ _, hw => ⟨.orReg (opX w) (opY w), rfl, encFR_of_mask hw⟩
  | .andReg _ _, hw => ⟨.andReg (opX w) (opY w), rfl, encFR_of_mask hw⟩
  | .xorReg _ _, hw => ⟨.xorReg (opX w) (opY w), rfl, encFR_of_mask hw⟩
  | .addReg _ _, hw => ⟨.addReg (opX w) (opY w), rfl, encFR_of_mask hw⟩
  | .subReg _ _, hw => ⟨.subReg (opX w) (opY w), rfl, encFR_of_mask hw⟩
  | .shrReg _ _, hw => ⟨.shrReg (opX w) (opY w), rfl, encFR_of_mask hw⟩
  | .subnReg _ _, hw => ⟨.subnReg (opX w) (opY w), rfl, encFR_of_mask hw⟩
  | .shlReg _ _, hw => ⟨.shlReg (opX w) (opY w), rfl, encFR_of_mask hw⟩
  | .ldI _, hw => ⟨.ldI (opNNN w), rfl, encFA_of_mask hw⟩
  | .jpV0 _, hw => ⟨.jpV0 (opNNN w), rfl, encFA_of_mask hw⟩
  | .rnd _ _, hw => ⟨.rnd (opX w) (opNN w), rfl, encFI_of_mask hw⟩
  | .drw _ _ _, hw => ⟨.drw (opX w) (opY w) (opN w), rfl, encFD_of_mask hw⟩
  | .skp _, hw => ⟨.skp (opX w), rfl, encFS_of_mask hw⟩
  | .sknp _, hw => ⟨.sknp (opX w), rfl, encFS_of_mask hw⟩
  | .ldVxDt _, hw => ⟨.ldVxDt (opX w), rfl, encFS_of_mask hw⟩
  | .ldVxK _, hw => ⟨.ldVxK (opX w), rfl, encFS_of_mask hw⟩
  | .ldDtVx _, hw => ⟨.ldDtVx (opX w), rfl, encFS_of_mask hw⟩
  | .ldStVx _, hw => ⟨.ldStVx (opX w), rfl, encFS_of_mask hw⟩
  | .addI _, hw => ⟨.addI (opX w), rfl, encFS_of_mask hw⟩
  | .ldF _, hw => ⟨.ldF (opX w), rfl, encFS_of_mask hw⟩
  | .ldB _, hw => ⟨.ldB (opX w), rfl, encFS_of_mask hw⟩
  | .saveRegs _, hw => ⟨.saveRegs (opX w), rfl, encFS_of_mask hw⟩
  | .loadRegs _, hw => ⟨.loadRegs (opX w), rfl, encFS_of_mask hw⟩

/-- The target condition of R84 is `wellFormed`. -/
theorem wellFormed_eq_row (t : Target) (i : Instr) :
    i.wellFormed t = (!i.row.schipOnly || t.quirks.hasHiresOps) := by
  cases i <;> rfl

/-- A row matches a word exactly when the word decodes to an instruction of the row. -/
theorem hits_iff_exists_decode {t : Target} {w : Word} {r : OpRow} (hr : r ∈ opTable) :
    r.hits t w = true ↔ ∃ i : Instr, i.row = r ∧ decode t w = .ok i := by
  simp only [OpRow.hits, Bool.and_eq_true, beq_iff_eq]
  constructor
  · rintro ⟨hmask, htarget⟩
    obtain ⟨i, rfl⟩ := exists_row_eq hr
    obtain ⟨j, hrow, rfl⟩ := exists_encode_of_mask i hmask
    refine ⟨j, hrow, decode_encode ?_⟩
    rw [wellFormed_eq_row, hrow, htarget]
  · rintro ⟨i, rfl, hi⟩
    rw [← wellFormed_eq_row, ← encode_of_decode hi]
    exact ⟨encodeMatchesRow i, decode_wellFormed hi⟩

/-! ## The obligations -/

/-- Settles O8, constructor by constructor: `decode_encode`. -/
theorem decodeOfEncodeIsTheInstruction : Obligations.DecodeOfEncodeIsTheInstruction := fun _ _ => decode_encode

/-- Settles O9, branch by branch of the decoder. -/
theorem decodedWordIsItsEncoding : Obligations.DecodedWordIsItsEncoding := fun _ _ _ h =>
  ⟨decode_wellFormed h, encode_of_decode h⟩

/-- Settles O10: both rows are the row of the one instruction that the word decodes to. -/
theorem noTwoRowsMatchOneWord : Obligations.NoTwoRowsMatchOneWord := by
  intro t w r r' hr hr' hhit hhit'
  obtain ⟨i, rfl, hi⟩ := (hits_iff_exists_decode hr).1 hhit
  obtain ⟨i', rfl, hi'⟩ := (hits_iff_exists_decode hr').1 hhit'
  cases hi.symm.trans hi'
  rfl

/-- Settles O11: a matching row and an instruction of the decoder come with each other. -/
theorem invalidIsWhatNoRowMatches : Obligations.InvalidIsWhatNoRowMatches := by
  intro t w
  have hrow {i : Instr} (hi : decode t w = .ok i) : i.row.hits t w = true :=
    (hits_iff_exists_decode (row_mem_opTable i)).2 ⟨i, rfl, hi⟩
  refine ⟨⟨?_, fun hnone => ?_⟩, fun i hi => ⟨row_mem_opTable i, hrow hi⟩⟩
  · rintro ⟨e, he⟩ r hr
    rw [← Bool.not_eq_true, hits_iff_exists_decode hr]
    rintro ⟨i, -, hi⟩
    cases he.symm.trans hi
  · cases hd : decode t w with
    | error e => exact ⟨e, rfl⟩
    | ok i => cases (hrow hd).symm.trans (hnone _ (row_mem_opTable i))

/-- Settles O7: closed decodings, evaluated. -/
theorem sampleWordsDecode : Obligations.SampleWordsDecode := by
  unfold Obligations.SampleWordsDecode
  decide

end Sys2Proof
end

section
/-! PROOFS. The family 40_execution_cycle.md: the fetch, what a cycle does by what it fetched, the slot around it, and
the PC after an instruction. -/

namespace Sys2Proof.Machine

/-! ## The suppressed cycle (40_execution_cycle.md R94) -/

theorem suppressed_iff (s : State) : s.suppressed = true ↔ s.fault ≠ none ∨ s.vbl = true := by
  simp only [State.suppressed, Bool.or_eq_true, Option.isSome_iff_ne_none]

/-- Settles O12, by the first test of the cycle. -/
theorem suppressedCycleDoesNothing : Obligations.SuppressedCycleDoesNothing := fun s h =>
  if_pos ((suppressed_iff s).2 h)

/-! ## Execution of a fetched word (R96, R100) -/

theorem execWord_of_decode {s : State} {w : Word} {i : Instr} (h : decode s.target w = .ok i) :
    execWord w s = exec i s := by
  simp only [execWord, h]

theorem execWord_of_invalid {s : State} {w : Word} {e : Invalid} (h : decode s.target w = .error e) :
    execWord w s = .next { s with pc := s.pc + 2, out := .invalidOpcode s.pc w :: s.out } := by
  simp only [execWord, h]
  rfl

/-- Settles O14, by the meaning of an Invalid word; the code and kind are a row of `HostEvent.error`. -/
theorem invalidWordIsReportedNoOp : Obligations.InvalidWordIsReportedNoOp := fun _ _ _ h =>
  ⟨execWord_of_invalid h, rfl⟩

/-! ## The fetch (R95) -/

theorem fetchWord_eq {s : State} (h : s.pc.toNat < 0xFFF) :
    fetchWord s = s.mem.get s.pc.toNat ++ s.mem.get (s.pc.toNat + 1) := by
  rw [fetchWord, wordOfBytes, addrAt_zero, addrAt_toNat (by omega)]

section
variable {s : State} (hfault : s.fault = none) (hvbl : s.vbl = false)
include hfault hvbl

theorem suppressed_eq_false : s.suppressed = false := by
  simp only [State.suppressed, hfault, hvbl, Option.isSome_none, Bool.or_self]

theorem clockSys_of_fetch (h : s.pc.toNat < 0xFFF) :
    clockSys s = execWord (s.mem.get s.pc.toNat ++ s.mem.get (s.pc.toNat + 1)) s := by
  have hfits : firstBad s.pc 2 = none := firstBad_eq_none_of_le (by omega)
  simp only [clockSys, suppressed_eq_false hfault hvbl, hfits, fetchWord_eq h, Bool.false_eq_true, if_false]

/-- The two ways the fetch faults: the first address outside memory is 0x1000, or the PC itself. -/
theorem clockSys_of_fetch_fault (h : 0xFFF ≤ s.pc.toNat) :
    clockSys s = .next (s.raise .memBounds (if s.pc = 0xFFF then 0x1000 else s.pc)) := by
  have hpc : s.pc.toNat < 4096 ↔ s.pc = 0xFFF := by bv_omega
  have hbad : firstBad s.pc 2 = some (if s.pc = 0xFFF then 0x1000 else s.pc) := by
    simp only [firstBad_eq (Nat.succ_pos 1), hpc, if_neg (show ¬ s.pc.toNat + 2 ≤ 4096 by omega)]
  simp only [clockSys, suppressed_eq_false hfault hvbl, hbad, Bool.false_eq_true, if_false]

end

/-- Settles O13, by the closed form of the fetch's bounds check. -/
theorem fetchIsBigEndianOrFaults : Obligations.FetchIsBigEndianOrFaults := by
  intro s hfault hvbl
  refine ⟨clockSys_of_fetch hfault hvbl, fun hpc => ?_, fun hpc => ?_⟩
  · rw [clockSys_of_fetch_fault hfault hvbl (by bv_omega), if_pos hpc]
    rfl
  · have hne : s.pc ≠ 0xFFF := by bv_omega
    rw [clockSys_of_fetch_fault hfault hvbl (by omega), if_neg hne]
    rfl

/-! ## Faults are precise (R101) -/

/-- Settles O16: from a state without a fault, only a raise, of the fetch or of the instruction, latches one, and a raise
is applied to the state before the cycle. -/
theorem faultsArePrecise : Obligations.FaultsArePrecise := by
  intro s t f hfault h hf
  have no_fault {u : State} (hu : u.fault = s.fault) (huf : u.fault = some f) : False :=
    nomatch huf.symm.trans (hu.trans hfault)
  obtain ⟨_, e⟩ | ⟨a, _, _, e⟩ | ⟨i, _, _, e⟩ | ⟨_, _, _, e⟩ := clockSys_cases s <;> rw [e] at h
  · cases h; exact (no_fault rfl hf).elim
  · cases h; cases hf; exact ⟨rfl, rfl⟩
  · obtain hkept | ⟨c, a, rfl, _, _⟩ := exec_fault_or_raise h
    · exact (no_fault hkept hf).elim
    · cases hf; exact ⟨rfl, rfl⟩
  · cases h; exact (no_fault rfl hf).elim

/-! ## A step in a cycle slot (60_exceptions.md R199, R203) -/

theorem afterCycle_of_running {s : State} (h : s.fault = none) (n : Nat) (u : Rat) :
    afterCycle n u s = { s with toneReq := s.toneReq || decide (0 < s.st.toNat), phase := .frame n u } := by
  simp only [afterCycle, h, clockSound_eq, State.goto]

theorem afterCycle_of_faulted {s : State} {f : FaultRecord} (h : s.fault = some f) (n : Nat) (u : Rat) :
    afterCycle n u s = { s with phase := .stopped .fault, out := .faultDiagnostic f :: s.out } := by
  simp only [afterCycle, h, State.emit, State.goto]

section
variable {s : State} {n : Nat} {u : Rat} (hp : s.phase = .frame (n + 1) u)
include hp

theorem step_of_slot : step s = slot n u s := by
  simp only [step, schedule, hp]

theorem step_of_cycle_running {t : State} (h : clockSys s = .next t) (ht : t.fault = none) :
    step s = .next { t with toneReq := t.toneReq || decide (0 < t.st.toNat), phase := .frame n u } := by
  rw [step_of_slot hp, slot, h, ← afterCycle_of_running ht]

theorem step_of_cycle_faulted {t : State} {f : FaultRecord} (h : clockSys s = .next t) (ht : t.fault = some f) :
    step s = .next { t with phase := .stopped .fault, out := .faultDiagnostic f :: t.out } := by
  rw [step_of_slot hp, slot, h, ← afterCycle_of_faulted ht n u]

theorem step_of_cycle_stop {r : Fault} (h : clockSys s = .fault r) : step s = .fault r := by
  rw [step_of_slot hp, slot, h]

end

/-- Settles O15, by what the cycle fetched (an instruction, an Invalid word, nothing) and what follows it in the
slot. -/
theorem stepRunsTheDecodedInstruction : Obligations.StepRunsTheDecodedInstruction := by
  rintro s n u w hp hfault hvbl rfl
  have hcycle := clockSys_of_fetch hfault hvbl
  refine ⟨fun i hpc hd => ?_, fun e hpc hd => ?_, ?_⟩
  · have hexec := (hcycle hpc).trans (execWord_of_decode hd)
    exact ⟨fun t h => step_of_cycle_running hp (hexec.trans h), fun t f h => step_of_cycle_faulted hp (hexec.trans h),
      fun r h => step_of_cycle_stop hp (hexec.trans h)⟩
  · exact step_of_cycle_running hp ((hcycle hpc).trans (execWord_of_invalid hd)) hfault
  · rintro f hpc rfl
    exact step_of_cycle_faulted hp (clockSys_of_fetch_fault hfault hvbl hpc) rfl

/-! ## The PC after an instruction (40_execution_cycle.md R97, R98) -/

theorem skipIf_pc_cases (s : State) (c : Bool) : (s.skipIf c).pc = s.pc + 2 ∨ (s.skipIf c).pc = s.pc + 4 := by
  cases c
  · exact .inl rfl
  · exact .inr rfl

/-- A skip on a key moves the PC from where it was before the key answer was taken. -/
theorem skipOnKey_pc {answer wanted : Bool} {x : Reg} {s t : State}
    (h : skipOnKey answer wanted (afterKeyAnswer s x) = .next t) : t.pc = s.pc + 2 ∨ t.pc = s.pc + 4 := by
  have hpc : (afterKeyAnswer s x).pc = s.pc := by rw [afterKeyAnswer_eq]
  cases h
  rw [← hpc]
  exact skipIf_pc_cases _ _

/-- FX0A stays where it is until the held key is released (45_timers_keys.md R162). -/
theorem keyWaitWith_pc {click : Byte} {x : Reg} {s t : State} (h : keyWaitWith click x s = .next t) :
    t.pc = s.pc + 2 ∨ t.pc = s.pc := by
  obtain ⟨_, _, e⟩ | ⟨k, _, _, e⟩ | ⟨_, _, e⟩ | ⟨_, _, e⟩ := keyWaitWith_cases click x s <;> cases e.symm.trans h
  · exact .inr rfl
  · exact .inr rfl
  · exact .inr rfl
  · exact .inl rfl

/-- A checked access that latches no fault went through. -/
theorem checked_of_no_fault {s t : State} {len : Nat} {access : Res} (h : checked s len access = .next t)
    (ht : t.fault = none) : access = .next t := by
  obtain ⟨a, _, rfl⟩ | ⟨_, e⟩ := checked_next h
  · cases ht
  · exact e

/-- Settles O49, by the instruction: a skip, FX0A, a checked access that went through, or the default commit. -/
theorem pcMovesByTwoUnlessControlFlow : Obligations.PcMovesByTwoUnlessControlFlow := by
  intro i s t _ h ht hret hjp hcall hjpV0
  cases i
  case ret => exact absurd rfl hret
  case jp nnn => exact absurd rfl (hjp nnn)
  case call nnn => exact absurd rfl (hcall nnn)
  case jpV0 nnn => exact absurd rfl (hjpV0 nnn)
  case seImm x nn => cases h; exact (skipIf_pc_cases s _).imp_right fun e => .inl ⟨e, .inl ⟨x, nn, .inl rfl⟩⟩
  case sneImm x nn => cases h; exact (skipIf_pc_cases s _).imp_right fun e => .inl ⟨e, .inl ⟨x, nn, .inr rfl⟩⟩
  case seReg x y => cases h; exact (skipIf_pc_cases s _).imp_right fun e => .inl ⟨e, .inr (.inl ⟨x, y, .inl rfl⟩)⟩
  case sneReg x y => cases h; exact (skipIf_pc_cases s _).imp_right fun e => .inl ⟨e, .inr (.inl ⟨x, y, .inr rfl⟩)⟩
  case skp x => exact (skipOnKey_pc h).imp_right fun e => .inl ⟨e, .inr (.inr ⟨x, .inl rfl⟩)⟩
  case sknp x => exact (skipOnKey_pc h).imp_right fun e => .inl ⟨e, .inr (.inr ⟨x, .inr rfl⟩)⟩
  case ldVxK x => exact (keyWaitWith_pc h).imp_right fun e => .inr ⟨e, x, rfl⟩
  case drw | ldB | saveRegs | loadRegs => cases checked_of_no_fault h ht; exact .inl rfl
  case orReg | andReg | xorReg => cases (writeRegLogic_eq _ _ s).symm.trans h; exact .inl rfl
  all_goals
    cases h
    exact .inl rfl

end Sys2Proof.Machine
end

section
/-! PROOFS. The family 41_control_flow.md: what RET and CALL answer at each stack depth, a chain of nested calls, the
targets of the jumps and the skips. -/

namespace Sys2Proof.Machine

/-! ## RET and CALL by the stack depth (R105, R107) -/

section
variable {s : State}

theorem exec_ret_of_empty (h : s.sp = 0) : exec .ret s = .next (s.raise .stackUnderflow 0) := if_pos h

theorem exec_ret_of_sp {k : Nat} (hk : k < 15) (h : s.sp.toNat = k + 1) :
    exec .ret s = .next { s with sp := s.sp - 1, pc := s.stack[k] + 2 } := by
  have hne : s.sp ≠ 0 := by bv_omega
  have hpred : (s.sp - 1).toNat = k := by bv_omega
  have hentry : s.stack[(s.sp - 1).toNat]? = some s.stack[k] := by
    rw [hpred]
    exact Vector.getElem?_eq_getElem _
  simp only [exec, execRet, if_neg hne, hentry]
  rfl

theorem exec_call_of_full (nnn : BitVec 12) (h : s.sp.toNat = 15) :
    exec (.call nnn) s = .next (s.raise .stackOverflow 0) := if_pos h.ge

theorem exec_call_of_sp (nnn : BitVec 12) (h : s.sp.toNat < 15) :
    exec (.call nnn) s =
      .next { s with stack := s.stack.set s.sp.toNat s.pc, sp := s.sp + 1, pc := nnn.setWidth 16 } := by
  have hpush : s.setStack s.sp.toNat s.pc = { s with stack := s.stack.set s.sp.toNat s.pc } := by
    rw [State.setStack, dif_pos]
  simp only [exec, execCall, if_neg h.not_ge, hpush]
  rfl

end

/-- Settles O17, by the two ways RET goes. -/
theorem retPopsOrUnderflows : Obligations.RetPopsOrUnderflows := fun _ =>
  ⟨exec_ret_of_empty, fun _ => exec_ret_of_sp⟩

/-- Settles O18, by the two ways CALL goes. -/
theorem callPushesOrOverflows : Obligations.CallPushesOrOverflows := fun _ nnn =>
  ⟨fun h => exec_call_of_full nnn (congrArg BitVec.toNat h), exec_call_of_sp nnn⟩

/-- Settles O21: the entry that RET pops is the one CALL pushed. -/
theorem retReturnsAfterItsCall : Obligations.RetReturnsAfterItsCall := by
  intro s nnn h
  refine ⟨_, exec_call_of_sp nnn h, fun t hsp hstack => ?_⟩
  have hdepth : t.sp.toNat = s.sp.toNat + 1 := by bv_omega
  have hold : t.sp - 1 = s.sp := by bv_omega
  have hentry : t.stack[s.sp.toNat] = s.pc := by simp only [hstack, Vector.getElem_set_self]
  rw [exec_ret_of_sp h hdepth, hold, hentry]

/-! ## A chain of nested calls (R107, corner cases) -/

theorem execList_singleton (i : Instr) (s : State) : execList [i] s = exec i s := by
  rw [execList]
  cases exec i s <;> rfl

theorem execList_append {is js : List Instr} {s t : State} (h : execList is s = .next t) :
    execList (is ++ js) s = execList js t := by
  induction is generalizing s with
  | nil => cases h; rfl
  | cons i is ih =>
    rw [execList] at h
    rw [List.cons_append, execList]
    split at h
    · exact ih h
    · cases h
    · cases h

/-- The address of the `k`-th CALL of a chain that starts at the PC of `s`: each later one stands at the target of the
one before it. -/
def callAddress (s : State) (ts : List (BitVec 12)) (k : Nat) : Word :=
  if k = 0 then s.pc else (ts.getD (k - 1) 0).setWidth 16

/-- A longer chain has the same call addresses, up to the end of the shorter one. -/
theorem callAddress_append {s : State} {ts us : List (BitVec 12)} {k : Nat} (h : k ≤ ts.length) :
    callAddress s (ts ++ us) k = callAddress s ts k := by
  unfold callAddress
  split
  · rfl
  · rw [List.getD_append _ _ _ _ (by omega)]

theorem callAddress_concat_length (s : State) (ts : List (BitVec 12)) (nnn : BitVec 12) :
    callAddress s (ts ++ [nnn]) (ts.length + 1) = nnn.setWidth 16 := by
  simp [callAddress]

/-- `t` is the state that the calls of `ts` lead to from `s` with an empty stack. -/
structure CallChain (s : State) (ts : List (BitVec 12)) (t : State) : Prop where
  run : execList (ts.map Instr.call) s = .next t
  fault : t.fault = none
  sp : t.sp.toNat = ts.length
  pc : t.pc = callAddress s ts ts.length
  entry : ∀ k, k < ts.length → (h16 : k < 16) → t.stack[k] = callAddress s ts k
  topEntry : t.stack[15] = s.stack[15]

theorem CallChain.nil {s : State} (hsp : s.sp = 0) (hfault : s.fault = none) : CallChain s [] s where
  run := rfl
  fault := hfault
  sp := congrArg BitVec.toNat hsp
  pc := rfl
  entry _ hk := absurd hk (Nat.not_lt_zero _)
  topEntry := rfl

section
variable {s t : State} {ts : List (BitVec 12)} (h : CallChain s ts t)
include h

theorem CallChain.run_concat (nnn : BitVec 12) : execList ((ts ++ [nnn]).map Instr.call) s = exec (.call nnn) t := by
  rw [List.map_append, execList_append h.run]
  exact execList_singleton _ t

/-- One more call pushes the address it stands at on the entries of the chain. -/
theorem CallChain.concat (nnn : BitVec 12) (hlen : ts.length < 15) : ∃ t', CallChain s (ts ++ [nnn]) t' := by
  have hsp : t.sp.toNat < 15 := h.sp ▸ hlen
  have hcall := exec_call_of_sp nnn hsp
  have htop := (exec_topEntry hcall).trans h.topEntry
  refine ⟨_, (h.run_concat nnn).trans hcall, h.fault, ?_, ?_, fun k hk h16 => ?_, htop⟩
  · have := h.sp
    simp only [List.length_append, List.length_singleton]
    bv_omega
  · rw [List.length_append]
    exact (callAddress_concat_length s ts nnn).symm
  · rw [List.length_append, List.length_singleton] at hk
    rw [callAddress_append (by omega)]
    simp only [h.sp]
    obtain hold | rfl := Nat.lt_succ_iff_lt_or_eq.1 hk
    · rw [Vector.getElem_set_ne _ _ hold.ne']
      exact h.entry k hold h16
    · rw [Vector.getElem_set_self]
      exact h.pc

end

theorem exists_callChain {s : State} (hsp : s.sp = 0) (hfault : s.fault = none) (ts : List (BitVec 12))
    (hlen : ts.length ≤ 15) : ∃ t, CallChain s ts t := by
  induction ts using List.reverseRecOn with
  | nil => exact ⟨s, .nil hsp hfault⟩
  | append_singleton ts nnn ih =>
    rw [List.length_append, List.length_singleton] at hlen
    obtain ⟨t, ht⟩ := ih (by omega)
    exact ht.concat nnn hlen

/-- Settles O20, by induction on the calls from the last one: each fills the next entry, and the 16th finds SP at 15. -/
theorem fifteenNestedCallsThenOverflow : Obligations.FifteenNestedCallsThenOverflow := by
  intro s ts hsp hfault hlen
  obtain ⟨t, ht⟩ := exists_callChain hsp hfault ts hlen
  exact ⟨t, ht.run, ht.fault, ht.sp, ht.entry, ht.topEntry, fun hfull nnn =>
    (ht.run_concat nnn).trans (exec_call_of_full nnn (ht.sp.trans hfull))⟩

/-! ## Jumps (R106, R108) -/

theorem jumpX_nibble_append (x : Reg) (nn : Byte) : jumpX (nibble x ++ nn) = x := by
  rw [jumpX, BitVec.extractLsb'_append_eq_left, ofNat_nibble]

theorem jumpNN_nibble_append (x : Reg) (nn : Byte) : jumpNN (nibble x ++ nn) = nn :=
  BitVec.extractLsb'_append_eq_right

theorem jumpOffsetTarget_chip8 {s : State} (h : s.target = .chip8) (nnn : BitVec 12) :
    jumpOffsetTarget s nnn = zextByte (s.getV 0) + zextAddr nnn := by
  rw [jumpOffsetTarget, State.q, if_neg ((jumpOffset_iff _).not_left.2 h)]

theorem jumpOffsetTarget_vx {s : State} (h : s.target ≠ .chip8) (x : Reg) (nn : Byte) :
    jumpOffsetTarget s (nibble x ++ nn) = zextByte (s.getV x) + zextByte nn := by
  rw [jumpOffsetTarget, State.q, if_pos ((jumpOffset_iff _).2 h), jumpX_nibble_append, jumpNN_nibble_append]

theorem exec_jp (nnn : BitVec 12) (s : State) : exec (.jp nnn) s = .next { s with pc := zextAddr nnn } := rfl

theorem exec_jpV0 (nnn : BitVec 12) (s : State) :
    exec (.jpV0 nnn) s = .next { s with pc := jumpOffsetTarget s nnn } := rfl

/-- Settles O22, by the target of each reading of BNNN. -/
theorem jumpsSetThePc : Obligations.JumpsSetThePc := by
  refine fun s nnn => ⟨exec_jp nnn s, fun h => ?_, ?_⟩
  · rw [exec_jpV0, jumpOffsetTarget_chip8 h]
    rfl
  · rintro h x nn rfl
    rw [exec_jpV0, jumpOffsetTarget_vx h]
    rfl

/-! ## Skips (R109 to R112) -/

theorem skipIf_eq (s : State) (c : Bool) : s.skipIf c = { s with pc := s.pc + if c then 4 else 2 } := by
  cases c <;> rfl

/-- Settles O23, by what a skip does on a comparison. -/
theorem skipsAddFourOrTwo : Obligations.SkipsAddFourOrTwo := by
  intro s x y nn
  simp only [exec, execSeImm, execSneImm, execSeReg, execSneReg, skipIf_eq, beq_iff_eq, bne_iff_ne, and_self]

end Sys2Proof.Machine
end

section
/-! PROOFS. The family 42_alu.md: the machine's byte operations as the integer arithmetic modulo 256 that the spec writes,
then what each register and arithmetic instruction does. -/

namespace Sys2Proof.Machine

/-! ## Byte operations as integer arithmetic (42_alu.md R121 to R125) -/

/-- The subtraction modulo 256 on natural numbers: 256 is added first, so that the difference is not cut off at 0. -/
theorem sub_eq_ofNat (a b : Byte) : a - b = BitVec.ofNat 8 (256 + a.toNat - b.toNat) := by bv_omega

theorem shiftRight_one_eq_ofNat (w : Byte) : w >>> 1 = BitVec.ofNat 8 (w.toNat / 2) := by bv_omega

theorem shiftLeft_one_eq_ofNat (w : Byte) : w <<< 1 = BitVec.ofNat 8 (w.toNat * 2) := by bv_omega

theorem shiftedOutRight_eq_ofNat (w : Byte) : shiftedOutRight w = BitVec.ofNat 8 (w.toNat % 2) :=
  (shiftedOutRight_eq_mod w).trans BitVec.umod_def

theorem shiftedOutLeft_eq_ofNat (w : Byte) : shiftedOutLeft w = BitVec.ofNat 8 (w.toNat / 128) :=
  (shiftedOutLeft_eq_div w).trans BitVec.udiv_def

/-! ## The instructions -/

/-- Settles O24: each of the three writes one register; the byte sum is the integer sum modulo 256. -/
theorem loadsAndAddImmediate : Obligations.LoadsAndAddImmediate := by
  refine fun s x y nn => ⟨writeReg_eq x nn s, ?_, writeReg_eq x (s.getV y) s⟩
  rw [← BitVec.add_def]
  exact writeReg_eq x (s.getV x + nn) s

/-- Settles O25: every target resets VF, after the result is written. -/
theorem logicOpsResetVf : Obligations.LogicOpsResetVf := fun s x y =>
  ⟨writeRegLogic_eq x (s.getV x ||| s.getV y) s, writeRegLogic_eq x (s.getV x &&& s.getV y) s,
    writeRegLogic_eq x (s.getV x ^^^ s.getV y) s⟩

/-- Settles O26, by the integer form of the results and of the flags. -/
theorem addAndSubtractWithFlag : Obligations.AddAndSubtractWithFlag := by
  intro s x y
  simp only [← BitVec.add_def, ← sub_eq_ofNat, ← carryFlag_eq, ← notBorrowFlag_eq]
  exact ⟨writeRegFlag_eq x _ _ s, writeRegFlag_eq x _ _ s, writeRegFlag_eq x _ _ s⟩

/-- Settles O27, by the operand of the target and the integer form of the shift and of the bit shifted out. -/
theorem shiftsByTarget : Obligations.ShiftsByTarget := by
  intro s x y w hw
  obtain rfl : w = shiftOperand s x y := hw.trans (shiftOperand_eq s x y).symm
  rw [← shiftRight_one_eq_ofNat, ← shiftLeft_one_eq_ofNat, ← shiftedOutRight_eq_ofNat, ← shiftedOutLeft_eq_ofNat]
  exact ⟨writeRegFlag_eq x _ _ s, writeRegFlag_eq x _ _ s⟩

theorem rndWith_eq (r : Byte) (x : Reg) (nn : Byte) (s : State) :
    rndWith r x nn s = .next { s with v := s.v.set x.val (r &&& nn), pc := s.pc + 2 } := writeReg_eq x (r &&& nn) s

/-- Settles O28: CXNN is `rndWith` at the drawn byte, on the state whose draw is used up. -/
theorem randomMasksADrawnByte : Obligations.RandomMasksADrawnByte := fun s x nn =>
  ⟨rndWith_eq (Config.randomByte s.draws) x nn s.drawn, fun r => rndWith_eq r x nn s⟩

end Sys2Proof.Machine
end

section
/-! PROOFS. The family 43_index_memory.md: what the index register takes, what the memory instructions answer where their
range is in memory and where it is not, then what they store and load. -/

namespace Sys2Proof.Machine

/-! ## The index register (43_index_memory.md R132 to R134) -/

theorem zextAddr_eq_ofNat (nnn : BitVec 12) : zextAddr nnn = BitVec.ofNat 16 nnn.toNat :=
  (BitVec.ofNat_toNat 16 nnn).symm

theorem add_zextByte_eq_ofNat (w : Word) (b : Byte) : w + zextByte b = BitVec.ofNat 16 (w.toNat + b.toNat) := by
  unfold zextByte; bv_omega

/-- The product does not wrap: 5 · 255 fits in 16 bits. -/
theorem zextByte_mul_five_eq_ofNat (b : Byte) : zextByte b * 5 = BitVec.ofNat 16 (5 * b.toNat) := by
  unfold zextByte; bv_omega

/-- Settles O30, by the integer form of the value each instruction gives `I`. -/
theorem indexRegisterUpdates : Obligations.IndexRegisterUpdates := by
  intro s x nnn
  rw [← zextAddr_eq_ofNat, ← add_zextByte_eq_ofNat, ← zextByte_mul_five_eq_ofNat]
  exact ⟨rfl, rfl, rfl⟩

/-! ## A stored range and the digits of a byte -/

/-- Byte `k` of a stored range reads back. -/
theorem get_writeBytes_add {bs : List Byte} {m : Memory} {a : Word} {k : Nat} (h : m.wf = true)
    (ha : a.toNat + bs.length ≤ 4096) (hk : k < bs.length) : (writeBytes m a bs).get (a.toNat + k) = bs.getD k 0 := by
  rw [get_writeBytes _ h ha, if_pos (by omega), Nat.add_sub_cancel_left]

theorem toNat_ofNat_of_le_toNat {b : Byte} {n : Nat} (h : n ≤ b.toNat) : (BitVec.ofNat 8 n).toNat = n :=
  Nat.mod_eq_of_lt (h.trans_lt b.isLt)

/-! ## The memory instructions where the range is in memory (R135 to R137) -/

section
variable {s : State} {x : Reg}

theorem exec_ldB_of_fits (h : s.i.toNat + 3 ≤ 4096) :
    exec (.ldB x) s =
      .next { s with mem := writeBytes s.mem s.i (bcdDigits (s.getV x)), pc := s.pc + 2 } :=
  checked_of_fits _ h

theorem exec_saveRegs_of_fits (h : s.i.toNat + (x.val + 1) ≤ 4096) :
    exec (.saveRegs x) s =
      .next { s with mem := writeBytes s.mem s.i (savedRegs s x), pc := s.pc + 2, i := postIncrementI s x } :=
  checked_of_fits _ h

theorem exec_loadRegs_of_fits (h : s.i.toNat + (x.val + 1) ≤ 4096) :
    exec (.loadRegs x) s = .next { s with v := loadedRegs s x, pc := s.pc + 2, i := postIncrementI s x } :=
  checked_of_fits _ h

end

/-- Settles O31: the three bytes read back as the digits, each of them small enough for a byte. -/
theorem bcdStoresThreeDigits : Obligations.BcdStoresThreeDigits := by
  intro s x hwf hi
  have hfits : s.i.toNat + (bcdDigits (s.getV x)).length ≤ 4096 := hi
  have hdigit (k : Nat) (hk : k < 3) : ((writeBytes s.mem s.i (bcdDigits (s.getV x))).get (s.i.toNat + k)).toNat =
      ((bcdDigits (s.getV x)).getD k 0).toNat := congrArg BitVec.toNat (get_writeBytes_add hwf hfits hk)
  refine ⟨_, exec_ldB_of_fits hfits, ?_, ?_, ?_, fun a => get_writeBytes_outside hfits⟩
  · exact (hdigit 0 (by decide)).trans (toNat_ofNat_of_le_toNat (Nat.div_le_self _ _))
  · exact (hdigit 1 (by decide)).trans (toNat_ofNat_of_le_toNat ((Nat.mod_le _ _).trans (Nat.div_le_self _ _)))
  · exact (hdigit 2 (by decide)).trans (toNat_ofNat_of_le_toNat (Nat.mod_le _ _))

/-- Settles O32: byte `k` of the stored range is register `k`, and the final `I` is that of the target. -/
theorem saveStoresTheRegisterRange : Obligations.SaveStoresTheRegisterRange := by
  intro s x hwf hi
  have hlen := savedRegs_length s x
  have hfits : s.i.toNat + (savedRegs s x).length ≤ 4096 := by omega
  rw [← postIncrementI_eq]
  refine ⟨_, exec_saveRegs_of_fits (by omega), fun k hk => ?_, fun a ha => ?_⟩
  · have hk' : k.val < (savedRegs s x).length := hlen ▸ Nat.lt_succ_of_le hk
    rw [get_writeBytes_add hwf hfits hk', savedRegs_getD s x k hk]
  · exact get_writeBytes_outside hfits (by omega)

/-- Settles O33: the addresses of the range do not wrap, so register `k` is the byte at `I + k`. -/
theorem loadFillsTheRegisterRange : Obligations.LoadFillsTheRegisterRange := by
  intro s x hi
  rw [← postIncrementI_eq]
  refine ⟨_, exec_loadRegs_of_fits hi, fun k => ?_⟩
  rw [loadedRegs_getElem, addrAt_toNat (by omega)]

/-- Settles O34: what FX55 stored from `I` is what FX65 loads from `I`; both end at the same `I`. -/
theorem saveThenLoadRestoresRegisters : Obligations.SaveThenLoadRestoresRegisters := by
  intro s x w hwf hi
  obtain ⟨m, hsave, hstored, _⟩ := saveStoresTheRegisterRange s x hwf hi
  obtain ⟨v, hload, hv⟩ := loadFillsTheRegisterRange { s with mem := m, pc := s.pc + 2, v := w } x hi
  refine ⟨_, _, hsave, hload, rfl, rfl, fun k => (hv k).trans ?_⟩
  split
  · next hk => exact hstored k hk
  · rfl

/-! ## The memory instructions where the range leaves memory (R139) -/

theorem spriteShape_len_of_ne_zero (t : Target) {n : BitVec 4} (hn : n ≠ 0) : (spriteShape t n).len = n.toNat := by
  rw [spriteShape, if_neg fun h => hn h.1]

/-- Settles O35: each of the instructions is an access behind the bounds check, which the range fails. -/
theorem outOfRangeAccessFaults : Obligations.OutOfRangeAccessFaults := by
  rintro s i len (⟨⟨x, rfl⟩, rfl⟩ | ⟨x, rfl, rfl⟩ | ⟨x, rfl, rfl⟩ | ⟨x, y, n, rfl, hn, rfl⟩ | ⟨⟨x, y, rfl⟩, ht, rfl⟩)
    hout
  · exact checked_of_out _ (by decide) hout
  · exact checked_of_out _ (Nat.succ_pos _) hout
  · exact checked_of_out _ (Nat.succ_pos _) hout
  · have hlen := spriteShape_len_of_ne_zero s.target hn
    have hpos : 0 < n.toNat := by bv_omega
    exact checked_of_out _ (by omega) (by omega)
  · have hlen : (spriteShape s.target 0).len = 32 := by rw [ht]; rfl
    exact checked_of_out _ (by omega) (by omega)

end Sys2Proof.Machine
end

section
/-! PROOFS. The family 44_display.md: the physical pixels a sprite flips are distinct, on the grid, and exactly those
that `covers` names; from this, what the display instructions do. -/

namespace Sys2Proof.Machine

/-! ## Logical and physical pixels (44_display.md R141, R151) -/

/-- The logical pixel that a physical pixel belongs to. -/
def logicalPixel (double : Bool) (q : Nat × Nat) : Nat × Nat :=
  (q.1 / if double then 2 else 1, q.2 / if double then 2 else 1)

theorem mem_physPixels {double : Bool} {p q : Nat × Nat} : q ∈ physPixels double p ↔ logicalPixel double q = p := by
  obtain ⟨px, py⟩ := p
  obtain ⟨qx, qy⟩ := q
  cases double
  · simp [physPixels, logicalPixel]
  · simp only [physPixels, logicalPixel, if_true, List.mem_cons, List.not_mem_nil, or_false, Prod.mk.injEq]
    omega

theorem nodup_physPixels (double : Bool) (p : Nat × Nat) : (physPixels double p).Nodup := by
  cases double <;> simp [physPixels]

theorem even_physSize (t : Target) : t.quirks.physWidth % 2 = 0 ∧ t.quirks.physHeight % 2 = 0 := by
  cases t <;> decide

theorem logicalPixel_lt_iff {s : State} {q : Nat × Nat} :
    (logicalPixel s.double q).1 < s.logicalWidth ∧ (logicalPixel s.double q).2 < s.logicalHeight ↔
      q.1 < s.q.physWidth ∧ q.2 < s.q.physHeight := by
  have heven : s.q.physWidth % 2 = 0 ∧ s.q.physHeight % 2 = 0 := even_physSize s.target
  simp only [logicalPixel, State.logicalWidth, State.logicalHeight]
  split <;> omega

/-! ## The sprite's pixels (R145 to R150) -/

/-- A list built in pieces has no duplicates when each entry tells which piece it comes from. -/
theorem nodup_flatMap_of_key {α β : Type} {f : α → List β} {l : List α} (key : β → α) (hl : l.Nodup)
    (hf : ∀ a, (f a).Nodup) (hkey : ∀ a, ∀ b ∈ f a, key b = a) : (l.flatMap f).Nodup :=
  List.nodup_flatMap.2 ⟨fun a _ => hf a, hl.imp fun hne b hb hb' =>
    hne ((hkey _ b hb).symm.trans (hkey _ b hb'))⟩

section
variable {sh : SpriteShape} {buf : List Byte} {w h x y : Nat}

/-- Bit `(j, i)` of a sprite goes to one pixel or to none. -/
theorem spriteBit_placed_iff {i j : Nat} {p : Nat × Nat} :
    (if spriteBit buf sh.wpx i j then placePixel false w h x y j i else none) = some p ↔
      spriteBit buf sh.wpx i j = true ∧ (x + j < w ∧ y + i < h) ∧ (x + j, y + i) = p := by
  simp only [placePixel, Bool.false_eq_true, if_false, Option.ite_none_right_eq_some, Option.some.injEq]

theorem mem_spritePixels {p : Nat × Nat} :
    p ∈ spritePixels false sh buf w h x y ↔
      (p.1 < w ∧ p.2 < h) ∧ (x ≤ p.1 ∧ p.1 < x + sh.wpx) ∧ (y ≤ p.2 ∧ p.2 < y + sh.rows) ∧
        spriteBit buf sh.wpx (p.2 - y) (p.1 - x) = true := by
  simp only [spritePixels, List.mem_flatMap, List.mem_filterMap, List.mem_range, spriteBit_placed_iff]
  constructor
  · rintro ⟨i, hi, j, hj, hbit, hin, rfl⟩
    rw [Nat.add_sub_cancel_left, Nat.add_sub_cancel_left]
    exact ⟨hin, ⟨by omega, by omega⟩, ⟨by omega, by omega⟩, hbit⟩
  · rintro ⟨hin, ⟨hxp, hxw⟩, ⟨hyp, hyr⟩, hbit⟩
    have hp : (x + (p.1 - x), y + (p.2 - y)) = p := Prod.ext (Nat.add_sub_cancel' hxp) (Nat.add_sub_cancel' hyp)
    exact ⟨p.2 - y, by omega, p.1 - x, by omega, hbit, ⟨by omega, by omega⟩, hp⟩

/-- The row of a pixel tells which row of the sprite it comes from, its column which bit of that row. -/
theorem nodup_spritePixels : (spritePixels false sh buf w h x y).Nodup := by
  refine nodup_flatMap_of_key (fun p => p.2 - y) List.nodup_range (fun i => ?_) fun i p hp => ?_
  · refine List.nodup_range.filterMap fun j j' p hj hj' => ?_
    obtain ⟨_, _, rfl⟩ := spriteBit_placed_iff.1 hj
    obtain ⟨_, _, e⟩ := spriteBit_placed_iff.1 hj'
    exact Nat.add_left_cancel (Prod.mk.inj e).1.symm
  · obtain ⟨j, _, hj⟩ := List.mem_filterMap.1 hp
    obtain ⟨_, _, rfl⟩ := spriteBit_placed_iff.1 hj
    exact Nat.add_sub_cancel_left y i

end

/-! ## The flipped pixels -/

section
variable (x y : Reg) (n : BitVec 4) (s : State)

/-- The physical pixels DXYN flips, in the order of the loops of R145 and R151. -/
def flippedPixels : List (Nat × Nat) := (drawnPixels Params.wrapPixels x y n s).flatMap (physPixels s.double)

theorem mem_flippedPixels {q : Nat × Nat} :
    q ∈ flippedPixels x y n s ↔ logicalPixel s.double q ∈ drawnPixels Params.wrapPixels x y n s := by
  simp only [flippedPixels, List.mem_flatMap, mem_physPixels, exists_eq_right']

theorem mem_flippedPixels_iff_covers (px py : Nat) :
    (px, py) ∈ flippedPixels x y n s ↔ covers x y n s px py = true := by
  rw [mem_flippedPixels, drawnPixels, mem_spritePixels, logicalPixel_lt_iff]
  simp only [covers, logicalPixel, Bool.and_eq_true, decide_eq_true_eq, and_assoc]

theorem nodup_flippedPixels : (flippedPixels x y n s).Nodup :=
  nodup_flatMap_of_key (logicalPixel s.double) nodup_spritePixels (nodup_physPixels s.double)
    fun _ _ => mem_physPixels.1

theorem flippedPixels_on_grid {q : Nat × Nat} (hq : q ∈ flippedPixels x y n s) : q.1 < 128 ∧ q.2 < 64 := by
  obtain ⟨hw, hh⟩ := physSize_le s.target
  obtain ⟨hx, hy⟩ := logicalPixel_lt_iff.1 (mem_spritePixels_clipped ((mem_flippedPixels x y n s).1 hq))
  exact ⟨hx.trans_le hw, hy.trans_le hh⟩

/-- The pixels after the draw and the collision flag (R152). -/
def drawResult : FrameBuffer × Bool := blit s.double s.fb (drawnPixels Params.wrapPixels x y n s)

theorem drawResult_eq_foldl : drawResult x y n s = (flippedPixels x y n s).foldl flipOne (s.fb, false) :=
  blit_eq_foldl s.double s.fb _

/-- The draw flips the covered pixels, and its flag says whether one of them was lit. -/
theorem drawResult_spec :
    (∀ px py, (drawResult x y n s).1.pixel px py = (s.fb.pixel px py ^^ covers x y n s px py)) ∧
    ((drawResult x y n s).2 = true ↔ ∃ px py, covers x y n s px py = true ∧ s.fb.pixel px py = true) := by
  obtain ⟨hpixel, hflag⟩ :=
    foldl_flipOne (nodup_flippedPixels x y n s) (fun _ => flippedPixels_on_grid x y n s) (s.fb, false)
  rw [drawResult_eq_foldl]
  constructor
  · intro px py
    rw [hpixel]
    simp only [mem_flippedPixels_iff_covers, Bool.decide_eq_true]
  · rw [hflag]
    simp only [Bool.false_or, List.any_eq_true, Prod.exists, mem_flippedPixels_iff_covers]

/-- DXYN where the sprite bytes are in memory (R145, R153, R154). -/
theorem exec_drw_of_in_memory (h : firstBad s.i (spriteShape s.target n).len = none) :
    exec (.drw x y n) s =
      .next { s with fb := (drawResult x y n s).1, v := s.v.set 15 (if (drawResult x y n s).2 then 1 else 0),
                     vbl := true, pc := s.pc + 2 } := by
  have hvbl : (s.vbl || s.q.vblankWait) = true := by rw [State.q, vblankWait_all, Bool.or_true]
  simp only [exec, execDrw, checked, h, hvbl]
  rfl

end

/-! ## The instructions -/

/-- Settles O36: each instruction is one named update; the blank grid holds no lit pixel. -/
theorem screenClearAndModes : Obligations.ScreenClearAndModes := fun _ =>
  ⟨⟨_, rfl, FrameBuffer.pixel_blank⟩, rfl, rfl⟩

/-- Settles O37: the loops flip distinct pixels of the grid, and these are the covered ones. -/
theorem drawFlipsExactlyTheCoveredPixels : Obligations.DrawFlipsExactlyTheCoveredPixels := fun s x y n hfits =>
  ⟨_, _, exec_drw_of_in_memory x y n s (firstBad_eq_none_of_le hfits), drawResult_spec x y n s⟩

theorem spriteShape_zero {t : Target} (ht : t ≠ .superchip10) : spriteShape t 0 = ⟨0, 8, 0⟩ :=
  if_neg fun h => ht ((bigSprite_iff t).1 h.2)

theorem drawResult_zero {s : State} (x y : Reg) (ht : s.target ≠ .superchip10) :
    drawResult x y 0 s = (s.fb, false) := by
  simp only [drawResult, drawnPixels, spriteShape_zero ht]
  rfl

/-- Settles O38: the sprite has no bytes to check and no rows to draw. -/
theorem drawOfZeroRowsOnlySetsLatches : Obligations.DrawOfZeroRowsOnlySetsLatches := by
  intro s x y ht
  have hlen : (spriteShape s.target 0).len = 0 := congrArg SpriteShape.len (spriteShape_zero ht)
  rw [exec_drw_of_in_memory x y 0 s (by rw [hlen, firstBad_zero]), drawResult_zero x y ht]
  rfl

/-- What a draw covers does not depend on the pixels, PC, VBL, or any register but VX and VY. -/
theorem covers_update {s : State} {x y : Reg} {w : Vector Byte 16} (hx : w[x.val] = s.getV x) (hy : w[y.val] = s.getV y)
    (n : BitVec 4) (fb : FrameBuffer) (p : Word) (b : Bool) :
    covers x y n { s with fb := fb, v := w, pc := p, vbl := b } = covers x y n s := by
  have hgetV (r : Reg) : ({ s with fb := fb, v := w, pc := p, vbl := b } : State).getV r = w[r.val] := rfl
  unfold covers
  rw [hgetV, hgetV, hx, hy]
  rfl

/-- A flag written to VF reads as 1 exactly when it is set. -/
theorem getV_vf_eq_one_iff {s : State} {v : Vector Byte 16} {c : Bool} (h : s.v = v.set 15 (if c then 1 else 0)) :
    s.getV 15 = 1 ↔ c = true := by
  have hvf : s.getV 15 = if c then 1 else 0 := by
    simp only [State.getV, h]
    exact Vector.getElem_set_self _
  rw [hvf]
  cases c <;> decide

/-- Settles O39: both draws cover the same pixels, so the second flips back what the first flipped; over clear places
the first draw lights exactly the pixels it covers, and the second meets them. -/
theorem drawingTwiceRestoresThePixels : Obligations.DrawingTwiceRestoresThePixels := by
  intro s x y n w p b hfits hx hy
  obtain ⟨fb, _, hfirst, hpixel, -⟩ := drawFlipsExactlyTheCoveredPixels s x y n hfits
  obtain ⟨fb', hit', hsecond, hpixel', hhit'⟩ :=
    drawFlipsExactlyTheCoveredPixels { s with fb := fb, v := w, pc := p, vbl := b } x y n hfits
  rw [covers_update hx hy] at hpixel' hhit'
  refine ⟨_, _, hfirst, hsecond, FrameBuffer.ext_pixel fun px py => ?_, fun hclear => ?_⟩
  · rw [hpixel', hpixel, Bool.xor_assoc, Bool.xor_self, Bool.xor_false]
  · refine (getV_vf_eq_one_iff rfl).trans (hhit'.trans (exists₂_congr fun px py => and_iff_left_of_imp fun hc => ?_))
    rw [hpixel, hclear px py hc, hc, Bool.false_xor]

end Sys2Proof.Machine
end

section
/-! PROOFS. The family 45_timers_keys.md: the skips on a key answer, the moves between VX and the timers, the key wait,
and the input snapshot through the scheduler's events. -/

namespace Sys2Proof.Machine

/-! ## The skips on a key (45_timers_keys.md R157, R158, R163) -/

theorem skipOnKey_true (d : Bool) (s : State) :
    skipOnKey d true s = .next { s with pc := s.pc + if d then 4 else 2 } := by
  cases d <;> rfl

theorem skipOnKey_false (d : Bool) (s : State) :
    skipOnKey d false s = .next { s with pc := s.pc + if d then 2 else 4 } := by
  cases d <;> rfl

theorem afterKeyAnswer_low {s : State} {x : Reg} {k : Key} (h : (s.getV x).toNat = k.val) : afterKeyAnswer s x = s := by
  have hk : (s.getV x).toNat < 16 := h ▸ k.isLt
  rw [afterKeyAnswer_eq, if_pos hk, Nat.add_zero]

theorem afterKeyAnswer_high {s : State} {x : Reg} (h : 15 < (s.getV x).toNat) : afterKeyAnswer s x = s.drawn := by
  rw [afterKeyAnswer_eq, if_neg (Nat.not_lt.2 h)]
  rfl

/-- Settles O40: the snapshot has the answer, and no draw is taken. -/
theorem skipOnSnapshotKey : Obligations.SkipOnSnapshotKey := by
  intro s x k hk
  simp only [exec, execSkp, execSknp, keyAnswer_low hk, afterKeyAnswer_low hk]
  exact ⟨skipOnKey_true _ s, skipOnKey_false _ s⟩

/-- Settles O41: both instructions are the skip on the drawn answer, in the state whose draw is used up. -/
theorem skipOnKeyCodeAboveFifteenIsADraw : Obligations.SkipOnKeyCodeAboveFifteenIsADraw := by
  intro s x hx
  simp only [exec, execSkp, execSknp, keyAnswer_high hx, afterKeyAnswer_high hx]
  exact ⟨skipOnKey_true _ s.drawn, skipOnKey_false _ s.drawn, fun d => ⟨skipOnKey_true d s, skipOnKey_false d s⟩⟩

/-! ## The timers and the key wait (R159 to R162) -/

/-- Settles O42: each instruction is one named update and the default commit. -/
theorem timerRegisterMoves : Obligations.TimerRegisterMoves := fun _ _ => ⟨rfl, rfl, rfl⟩

section
variable {s : State} (click : Byte) (x : Reg)

theorem keyWaitWith_of_no_key (hkw : s.kw = .idle) (hlast : s.lastKey = none) : keyWaitWith click x s = .next s := by
  simp only [keyWaitWith, hkw, hlast]

theorem keyWaitWith_of_key {k : Key} (hkw : s.kw = .idle) (hlast : s.lastKey = some k) :
    keyWaitWith click x s = .next (((s.setV x (keyByte k)).setSt click).setKeyWait .held k) := by
  simp only [keyWaitWith, hkw, hlast]

theorem keyWaitWith_of_down (hkw : s.kw = .held) (hdown : s.keyDown s.kwk = true) :
    keyWaitWith click x s = .next s := by
  simp only [keyWaitWith, hkw, hdown, if_true]

theorem keyWaitWith_of_up (hkw : s.kw = .held) (hup : s.keyDown s.kwk = false) :
    keyWaitWith click x s = .next (s.setKeyWait .idle s.kwk).advance := by
  simp only [keyWaitWith, hkw, hup, Bool.false_eq_true, if_false]

end

/-- Settles O43, by the latch and what it looks at: the last key when idle, the recorded key when held. -/
theorem keyWaitRecordsHoldsAndResumes : Obligations.KeyWaitRecordsHoldsAndResumes := fun _ x =>
  ⟨keyWaitWith_of_no_key _ x, fun _ => keyWaitWith_of_key _ x, keyWaitWith_of_down _ x, keyWaitWith_of_up _ x⟩

/-! ## The input snapshot through the scheduler's events (R164) -/

/-- The input snapshot, in the form the poll gives it (10_state.md R39). -/
def State.input (s : State) : Poll := { keys := s.keys, lastKey := s.lastKey, exit := s.exit }

theorem State.input_eq_iff {s t : State} :
    t.input = s.input ↔ t.keys = s.keys ∧ t.lastKey = s.lastKey ∧ t.exit = s.exit := by
  rw [State.input, State.input, Poll.mk.injEq]

theorem exec_input {i : Instr} {s t : State} (h : exec i s = .next t) : t.input = s.input :=
  (congrArg State.input (exec_frame h) :)

theorem clockSys_input {s t : State} (h : clockSys s = .next t) : t.input = s.input := by
  obtain ⟨_, e⟩ | ⟨a, _, _, e⟩ | ⟨i, _, _, e⟩ | ⟨_, _, _, e⟩ := clockSys_cases s <;> rw [e] at h
  · cases h; rfl
  · cases h; rfl
  · exact exec_input h
  · cases h; rfl

theorem afterCycle_input (n : Nat) (u : Rat) (s : State) : (afterCycle n u s).input = s.input := by
  cases hf : s.fault with
  | none => rw [afterCycle_of_running hf]; rfl
  | some f => rw [afterCycle_of_faulted hf]; rfl

theorem iterate_input (u : Rat) (s : State) : (iterate u s).input = s.input := by
  unfold iterate
  split <;> rfl

theorem betweenFrames_input (s : State) : (betweenFrames s).input = s.input := by
  unfold betweenFrames betweenFramesWith
  split
  · rfl
  · exact iterate_input _ s

theorem afterStop_input (s : State) : (afterStop s).input = s.input := by
  unfold afterStop afterStopWith
  split <;> rfl

/-- Settles O56, by the events a step can be: only the bus clock polls, and that event is the one left out. -/
theorem keysChangeOnlyAtThePoll : Obligations.KeysChangeOnlyAtThePoll := by
  intro s t h hbus
  rw [← State.input_eq_iff]
  obtain ⟨_, h⟩ | ⟨_, rfl⟩ | ⟨_, rfl⟩ | ⟨n, u, _, h⟩ | ⟨u, hp, _⟩ | ⟨u, _, rfl⟩ | ⟨w, _, rfl⟩ := step_cases h
  · obtain ⟨r, _, _, _, rfl⟩ := loadRom_next h
    rfl
  · rfl
  · exact betweenFrames_input s
  · obtain ⟨s1, hs, rfl⟩ := slot_next h
    exact (afterCycle_input n u s1).trans (clockSys_input hs)
  · exact absurd hp (hbus u)
  · rfl
  · exact afterStop_input s

end Sys2Proof.Machine
end

section
/-! PROOFS. The family 60_exceptions.md: the clocks, the credit and the slot counts of the frames, and the step of each
phase of the scheduler outside a cycle slot. -/

namespace Sys2Proof.Machine

/-! ## The three clocks (60_exceptions.md R184 to R192) -/

theorem tickDown_eq_ofNat (b : Byte) : tickDown b = BitVec.ofNat 8 (b.toNat - 1) := by
  rw [← tickDown_toNat, BitVec.ofNat_toNat, BitVec.setWidth_eq]

theorem clock60hz_eq (s : State) :
    clock60hz s =
      { s with dt := BitVec.ofNat 8 (s.dt.toNat - 1), st := BitVec.ofNat 8 (s.st.toNat - 1), vbl := false } := by
  rw [clock60hz, tickDown_eq_ofNat, tickDown_eq_ofNat]

/-- Settles O45: each clock is its closed form; the bus clock's is its definition. -/
theorem clockEffects : Obligations.ClockEffects := fun s _ => ⟨clock60hz_eq s, clockSound_eq s, rfl⟩

/-- Settles O44, by induction on the number of ticks, the last one taken off first. -/
theorem timersCountDownToZero : Obligations.TimersCountDownToZero := by
  intro n s
  induction n with
  | zero => exact ⟨rfl, rfl⟩
  | succ n ih =>
    obtain ⟨hdt, hst⟩ := ih
    rw [Function.iterate_succ_apply', clock60hz, tickDown_toNat, tickDown_toNat, hdt, hst]
    exact ⟨Nat.sub_sub .., Nat.sub_sub ..⟩

/-! ## The credit and the slots of a frame (R198, R204, R205) -/

/-- Settles O52: one period adds 500/60, which is over 8; the carried credit is a fractional part. -/
theorem everyFrameHasEightSlots : Obligations.EveryFrameHasEightSlots := by
  intro credit delta hcredit hdelta
  refine ⟨Rat.le_floor_iff.2 ?_, Int.fract_nonneg _, Int.fract_lt_one _⟩
  rw [cycleCredit, Int.cast_ofNat]
  linarith

/-- The floor of the model is Mathlib's. -/
theorem ratFloor_eq_intFloor (q : Rat) : q.floor = ⌊q⌋ := rfl

/-- A frame whose credit is a whole number and a rest below 1 has that number of slots and carries the rest. -/
theorem slotCounts_cons_of_split {credit d r : Rat} {n : Nat} (h : cycleCredit credit d = n + r) (hr : 0 ≤ r)
    (hr1 : r < 1) (ds : List Rat) :
    slotCounts credit (d :: ds) = (n :: (slotCounts r ds).1, (slotCounts r ds).2) := by
  have hfloor : (cycleCredit credit d).floor = n := by
    rw [h, ratFloor_eq_intFloor, Int.floor_natCast_add, Int.floor_eq_zero_iff.2 ⟨hr, hr1⟩, add_zero]
  have hrest : cycleCredit credit d - ((n : Int) : Rat) = r := by rw [h, Int.cast_natCast, add_sub_cancel_left]
  simp only [slotCounts, hfloor, hrest, Int.toNat_natCast]

/-- From a credit in [0, 1) no slot is lost over any frames: their number is the whole part of all the credit there was,
and the fractional part is carried. -/
theorem slotCounts_total {ds : List Rat} (hds : ∀ d ∈ ds, 0 ≤ d) {credit : Rat} (h0 : 0 ≤ credit) (h1 : credit < 1) :
    ((slotCounts credit ds).1.sum : Int) = ⌊credit + 500 * ds.sum⌋ ∧
      (slotCounts credit ds).2 = Int.fract (credit + 500 * ds.sum) := by
  induction ds generalizing credit with
  | nil => simp [slotCounts, Int.floor_eq_zero_iff.2 ⟨h0, h1⟩, Int.fract_eq_self.2 ⟨h0, h1⟩]
  | cons d ds ih =>
    obtain ⟨hd, hds⟩ := List.forall_mem_cons.1 hds
    have hc : 0 ≤ cycleCredit credit d := add_nonneg h0 (mul_nonneg hd (by norm_num))
    have hsplit : cycleCredit credit d = ⌊cycleCredit credit d⌋₊ + Int.fract (cycleCredit credit d) := by
      rw [natCast_floor_eq_intCast_floor hc, Int.floor_add_fract]
    have hall : Int.fract (cycleCredit credit d) + 500 * ds.sum =
        credit + 500 * (d :: ds).sum - (⌊cycleCredit credit d⌋₊ : Rat) := by
      rw [← sub_eq_of_eq_add' hsplit, List.sum_cons, cycleCredit, Params.ips]
      ring
    obtain ⟨hsum, hrest⟩ := ih hds (Int.fract_nonneg (cycleCredit credit d)) (Int.fract_lt_one _)
    rw [slotCounts_cons_of_split hsplit (Int.fract_nonneg _) (Int.fract_lt_one _)]
    rw [hall] at hsum hrest
    rw [Int.floor_sub_natCast] at hsum
    rw [Int.fract_sub_natCast] at hrest
    exact ⟨by rw [List.sum_cons, Nat.cast_add, hsum, add_sub_cancel], hrest⟩

/-- Settles O53: the total from a credit of 0. -/
theorem slotCountsDoNotDrift : Obligations.SlotCountsDoNotDrift := by
  intro ds hds
  have hds0 : ∀ d ∈ ds, 0 ≤ d := fun d hd => (by norm_num : (0 : Rat) ≤ 1 / 60).trans (hds d hd)
  have htotal := slotCounts_total hds0 le_rfl one_pos
  rwa [zero_add] at htotal

/-- The credit after one, two and three nominal frames is 8⅓, 8⅔ and 9 (R205). -/
theorem slotCounts_three_nominal (ds : List Rat) :
    slotCounts 0 (1 / 60 :: 1 / 60 :: 1 / 60 :: ds) =
      (8 :: 8 :: 9 :: (slotCounts 0 ds).1, (slotCounts 0 ds).2) := by
  have hfirst : cycleCredit 0 (1 / 60) = (8 : Nat) + 1 / 3 := by norm_num [cycleCredit]
  have hsecond : cycleCredit (1 / 3) (1 / 60) = (8 : Nat) + 2 / 3 := by norm_num [cycleCredit]
  have hthird : cycleCredit (2 / 3) (1 / 60) = (9 : Nat) + 0 := by norm_num [cycleCredit]
  rw [slotCounts_cons_of_split hfirst (by norm_num) (by norm_num),
    slotCounts_cons_of_split hsecond (by norm_num) (by norm_num),
    slotCounts_cons_of_split hthird le_rfl one_pos]

/-- Settles O54, by induction on the number of groups of three frames, each of which leaves no credit. -/
theorem nominalScheduleIsEightEightNine : Obligations.NominalScheduleIsEightEightNine := by
  intro k
  induction k with
  | zero => exact ⟨rfl, rfl⟩
  | succ k ih =>
    obtain ⟨hcounts, hcredit⟩ := ih
    simp only [Nat.mul_succ, List.replicate_succ, slotCounts_three_nominal, hcounts, hcredit, List.flatten_cons,
      List.cons_append, List.nil_append, and_self]

/-! ## The step of each phase outside a cycle slot (R196; log entry 9) -/

section
variable {s : State}

theorem step_of_load (hp : s.phase = .load) : step s = loadRom Config.rom s := by
  simp only [step, schedule, hp]

theorem step_of_start (hp : s.phase = .start) : step s = .next (enterRun (Config.now s.draws) s).drawn := by
  simp only [step, schedule, hp]

theorem step_of_wait (hp : s.phase = .wait) : step s = .next (betweenFrames s) := by
  simp only [step, schedule, hp]

theorem step_of_bus {u : Rat} (hp : s.phase = .frame 0 u) :
    step s = .next ((clockBus (Config.poll s.draws) s).drawn.goto (.tick u)) := by
  simp only [step, schedule, hp]

theorem step_of_tick {u : Rat} (hp : s.phase = .tick u) : step s = .next (endFrame u s) := by
  simp only [step, schedule, hp]

theorem step_of_stopped {why : StopReason} (hp : s.phase = .stopped why) : step s = .next (afterStop s) := by
  simp only [step, schedule, hp]

theorem loadRom_of_length {r : List Byte} (hmin : 1 ≤ r.length) (hmax : r.length ≤ Params.maxRom) :
    loadRom (some r) s = .next ((s.setMem (writeBytes s.mem Params.loadAddress r)).goto .start) := by
  simp only [loadRom, if_neg (Nat.one_le_iff_ne_zero.1 hmin), if_neg (Nat.not_lt.2 hmax)]

theorem iterate_of_period_passed {u : Rat} (h : Params.framePeriod ≤ u - s.tLast) :
    iterate u s =
      { s with
        credit := Int.fract (cycleCredit s.credit (u - s.tLast))
        phase := .frame (cycleCredit s.credit (u - s.tLast)).floor.toNat u } :=
  if_pos h

theorem iterate_of_early {u : Rat} (h : u - s.tLast < Params.framePeriod) : iterate u s = s :=
  if_neg (not_le.2 h)

end

/-- Settles O60: the load writes memory and moves on to the entry of `run()`. -/
theorem loadThenRunStartsTheLoop : Obligations.LoadThenRunStartsTheLoop := fun _ _ hp hmin hmax =>
  ⟨step_of_load hp, _, loadRom_of_length hmin hmax, rfl, step_of_start rfl⟩

/-- Settles O50, by whether one period has passed. -/
theorem frameFiresAfterOnePeriod : Obligations.FrameFiresAfterOnePeriod := by
  rintro s u _ hp - rfl
  exact ⟨step_of_wait hp, fun h => congrArg State.drawn (iterate_of_period_passed h),
    fun h => congrArg State.drawn (iterate_of_early h)⟩

/-- Settles O51: the 60 Hz clock keeps the snapshot the bus clock has just polled, and the exit check reads that. -/
theorem frameEndsWithBusThenTickThenExitCheck : Obligations.FrameEndsWithBusThenTickThenExitCheck := fun _ _ hp =>
  ⟨_, step_of_bus hp, rfl, step_of_tick rfl⟩

/-- Settles O58: by the invariant a latched fault means a loop that has ended, where only a reset does anything. -/
theorem faultedMachineWaitsForReset : Obligations.FaultedMachineWaitsForReset := fun _ hs hfault =>
  ⟨step_of_stopped (hs.faultStops.1 (Option.isSome_iff_ne_none.2 hfault)), rfl, rfl⟩

end Sys2Proof.Machine
end

section
/-! PROOFS. The family 70_reset_and_hazards.md: the program load and its failures, a reset between two frames, and the
slots that pass while the vblank wait is on. -/

namespace Sys2Proof.Machine

/-! ## The program load (70_reset_and_hazards.md R212 to R214) -/

/-- Settles O5: the load stores the ROM as one range, which fits between the load address and the end of memory. -/
theorem romLoadPlacesBytes : Obligations.RomLoadPlacesBytes := by
  intro s r hwf hmin hmax
  have hfits : Params.loadAddress.toNat + r.length ≤ 4096 := Nat.add_le_add_left hmax 0x200
  exact ⟨_, loadRom_of_length hmin hmax, fun _ => get_writeBytes_add hwf hfits,
    fun _ => get_writeBytes_outside hfits⟩

theorem loadRom_of_too_large {r : List Byte} (h : Params.maxRom < r.length) (s : State) :
    loadRom (some r) s = .fault (.romLoad .tooLarge) := by
  simp only [loadRom, if_neg (Nat.ne_zero_of_lt h), if_pos h]

/-- Settles O6: each test of the load stops it, and every load failure has one row of `Fault.error`. -/
theorem badRomStopsBeforeAnyCycle : Obligations.BadRomStopsBeforeAnyCycle := fun s =>
  ⟨rfl, rfl, fun _ h => loadRom_of_too_large h s, fun _ => rfl⟩

/-! ## A reset between two frames (R209) -/

/-- Settles O59: the CPU reset writes none of the fields named, and the phase stays the one between two frames. -/
theorem resetBetweenFramesKeepsMemoryAndSchedule : Obligations.ResetBetweenFramesKeepsMemoryAndSchedule := fun s _ hp =>
  ⟨step_of_wait hp, rfl, s.cpuReset_mem, s.cpuReset_fb, s.cpuReset_double, s.cpuReset_tLast, s.cpuReset_credit,
    s.cpuReset_phase.trans hp⟩

/-! ## The slots of a frame once VBL is set (R217) -/

theorem run_succ_of_step {s t : State} (h : step s = .next t) (n : Nat) :
    Host.Core.run Sys2Proof.core (n + 1) s = Host.Core.run Sys2Proof.core n t := by
  have hcore : Sys2Proof.core.step s = .next t := h
  simp only [Host.Core.run, hcore]

/-- A slot of the vblank wait is a suppressed cycle and the sound clock. -/
theorem step_of_vblank_wait {s : State} {n : Nat} {u : Rat} (hp : s.phase = .frame (n + 1) u) (hvbl : s.vbl = true)
    (hfault : s.fault = none) :
    step s = .next { s with toneReq := s.toneReq || decide (0 < s.st.toNat), phase := .frame n u } :=
  step_of_cycle_running hp (suppressedCycleDoesNothing s (.inr hvbl)) hfault

/-- Settles O55, by induction on the slots left, the first one taken off: it sets the tone request if any slot does,
since ST does not change. -/
theorem vblankWaitUsesUpTheFrame : Obligations.VblankWaitUsesUpTheFrame := by
  intro n u
  induction n with
  | zero =>
    intro s hp _ _
    have hnone : decide (0 < 0 ∧ 0 < s.st.toNat) = false := decide_eq_false fun h => Nat.lt_irrefl 0 h.1
    rw [hnone, Bool.or_false, ← hp]
    rfl
  | succ n ih =>
    intro s hp hvbl hfault
    have htone : ((s.toneReq || decide (0 < s.st.toNat)) || decide (0 < n ∧ 0 < s.st.toNat)) =
        (s.toneReq || decide (0 < n + 1 ∧ 0 < s.st.toNat)) := by
      by_cases hst : 0 < s.st.toNat <;> simp [hst]
    rw [← htone]
    exact (run_succ_of_step (step_of_vblank_wait hp hvbl hfault) n).trans (ih _ rfl hvbl hfault)

end Sys2Proof.Machine
end
